-- ==== Sys2Proof/Word.lean ====
section
/-! DEFINITION. The widths of this hardware's values (spec/00_scope.md R7): everything is unsigned. -/

namespace Sys2Proof

/-- `u8`. -/
abbrev Byte := BitVec 8

/-- `u16`: the checksum accumulator and both checksum results (R5, `CRC_WIDTH`). -/
abbrev Word16 := BitVec 16

/-- `u32`: the total bit length. -/
abbrev Word32 := BitVec 32

/-- The 48-bit probe word `PW` of spec/30_encoding.md R66. -/
abbrev Word48 := BitVec 48

/-- `u64`: the source and destination UIDs. -/
abbrev Word64 := BitVec 64

end Sys2Proof
end

