-- ==== Sys2Proof/Config.lean ====
section
/-! DEFINITION. The configuration record of the model: the constants of spec/00_scope.md R5 that the spec itself decided and
asks a model to keep as named parameters. They are parameters of the model, not registers of the hardware
(spec/10_state.md R19). The value the machine uses is `Sys2Proof.Machine.config` (Machine/Registry.lean).
The spec leaves no result undefined, so there is no free value here. -/

namespace Sys2Proof

/-- The tag of a decoded frame (spec/00_scope.md glossary, FrameVariant). -/
inductive Variant where
  | shortBroadcast
  | directed
  | shortDirected
  | beacon
  | broadcast
  | unknown
  deriving DecidableEq, Repr

/-- The field names of the layouts (spec/30_encoding.md R52 to R57). The two open tags are two registers (C4). -/
inductive Field where
  | length
  | eirp
  | subnet
  | frameControl
  | msgId
  | addrControl
  | srcUid
  | dstUid
  | openTag8
  | openTag1
  deriving DecidableEq, Repr

/-- One row of a layout table of R52 to R57. `inFields` is the table's last column: a length byte that is on the wire
but not a member of the variant's record (`Beacon`, `Broadcast`) counts toward the size and writes no `F_*` register. -/
structure FieldSpec where
  field : Field
  offset : Nat
  width : Nat
  inFields : Bool
  deriving DecidableEq, Repr

/-- `UNKNOWN_MODE` (R5, D10, U1): whether an `Unknown` frame is decoded like every other variant or ends the run. -/
inductive UnknownMode where
  | uniform
  | refuse
  deriving DecidableEq, Repr

/-- What the spec decided and a claim may name: `CHECKSUM_FIELD_BITS` and the `OVERHEAD_BITS` it enters (D7), `UNKNOWN_MODE` (D10),
and the layout table from which every `MIN[v]` follows (D4, D5, D6, U8). -/
structure Config where
  checksumFieldBits : Nat
  overheadBits : Nat
  unknownMode : UnknownMode
  layout : Variant → List FieldSpec

end Sys2Proof
end

