-- ==== Sys2Proof/Syntax.lean ====
section
/-! DEFINITION. The instructions: one constructor per row of spec/opcode_table.json. -/

namespace Sys2Proof

/-- The six probe bytes `P0` to `P5` (spec/30_encoding.md R51): what selects a frame instruction. -/
structure Probe where
  p0 : Byte
  p1 : Byte
  p2 : Byte
  p3 : Byte
  p4 : Byte
  p5 : Byte
  deriving DecidableEq, Repr

/-- What the discriminant bytes select (R58): a variant, or the illegal address-control space. -/
inductive Selection where
  | variant (v : Variant)
  | illegalAddressControl
  deriving DecidableEq, Repr

/-- The two levels of instruction (spec/00_scope.md R1). The first seven are frames: an operand is a probe byte that the
row does not fix, under the name its layout gives it (`uid0`, `uid1` are the first two bytes of the short layouts' UID).
The last four are the codes of the operation select `OP` (spec/30_encoding.md R67). -/
inductive Instr where
  | shortBroadcast (length eirp msgId uid0 uid1 : Byte)
  | directed (length eirp subnet msgId addrControl : Byte)
  | shortDirected (length eirp msgId uid0 uid1 : Byte)
  | beacon (length eirp subnet msgId : Byte)
  | broadcast (length eirp subnet msgId : Byte)
  | illegalAddressControl (length eirp subnet msgId addrControl : Byte)
  | unknown (length eirp byte2 frameControl byte4 byte5 : Byte)
  | calculateCrc16
  | decodeFrame
  | selfCheck
  | unassigned
  deriving DecidableEq, Repr

/-- An encoded instruction: an operation select code (R67) or a probe (R66). The opcode table keeps the two apart by its
`space` entry. -/
inductive Code where
  | op (code : BitVec 2)
  | frame (p : Probe)
  deriving DecidableEq, Repr

end Sys2Proof
end

