-- ==== Sys2Proof/WellFormed.lean ====
section
/-! DEFINITION. Which instructions some encoding stands for. -/

namespace Sys2Proof

/-- The two rows with a condition on an operand (spec/30_encoding.md R58): the illegal space is reached only with an
address-control byte that neither `Beacon` nor `Broadcast` has, and `Unknown` only with a frame-control byte that no
other row has. Every other operand may hold anything (R63), the length byte included: a length below the
minimum is an outcome of the frame (R105), not an ill-formed one. -/
def Instr.wellFormed : Instr → Bool
  | .shortBroadcast _ _ _ _ _ => true
  | .directed _ _ _ _ _ => true
  | .shortDirected _ _ _ _ _ => true
  | .beacon _ _ _ _ => true
  | .broadcast _ _ _ _ => true
  | .illegalAddressControl _ _ _ _ addrControl => addrControl != 0x40#8 && addrControl != 0x41#8
  | .unknown _ _ _ frameControl _ _ =>
    frameControl != 0x04#8 && frameControl != 0x05#8 && frameControl != 0x20#8 && frameControl != 0x22#8
  | .calculateCrc16 => true
  | .decodeFrame => true
  | .selfCheck => true
  | .unassigned => true

end Sys2Proof
end

