-- ==== Sys2Proof/Decode.lean ====
section
/-! DEFINITION. The dispatcher's selection, the decoder of frames and of operation codes, the opcode table as rows of mask
and match, and the encoder. -/

namespace Sys2Proof

/-- The positional multiplexer, spec/41_dispatch.md R102 with its sub-dispatch R103 and fallback R104. Whole bytes are
compared. -/
def select (p : Probe) : Selection :=
  if p.p3 = 0x04#8 then .variant .shortBroadcast
  else if p.p3 = 0x20#8 then .variant .directed
  else if p.p3 = 0x05#8 then .variant .shortDirected
  else if p.p3 = 0x22#8 then
    if p.p5 = 0x40#8 then .variant .beacon
    else if p.p5 = 0x41#8 then .variant .broadcast
    else .illegalAddressControl
  else .variant .unknown

/-- The frame instruction a probe stands for: every one of the 2^48 probes stands for exactly one (R58). -/
def decodeProbe (p : Probe) : Instr :=
  match select p with
  | .variant .shortBroadcast => .shortBroadcast p.p0 p.p1 p.p2 p.p4 p.p5
  | .variant .directed => .directed p.p0 p.p1 p.p2 p.p4 p.p5
  | .variant .shortDirected => .shortDirected p.p0 p.p1 p.p2 p.p4 p.p5
  | .variant .beacon => .beacon p.p0 p.p1 p.p2 p.p4
  | .variant .broadcast => .broadcast p.p0 p.p1 p.p2 p.p4
  | .variant .unknown => .unknown p.p0 p.p1 p.p2 p.p3 p.p4 p.p5
  | .illegalAddressControl => .illegalAddressControl p.p0 p.p1 p.p2 p.p4 p.p5

/-- The operation select code (spec/30_encoding.md R67). -/
def decodeOp (code : BitVec 2) : Instr :=
  if code = 0#2 then .calculateCrc16
  else if code = 1#2 then .decodeFrame
  else if code = 2#2 then .selfCheck
  else .unassigned

/-- Decoding of either kind of code. -/
def decode : Code → Instr
  | .op code => decodeOp code
  | .frame p => decodeProbe p

/-- Why a byte sequence is no frame instruction: it has fewer than the six bytes a probe needs (R51). -/
inductive DecodeReject where
  | probeTooShort (available : Nat)
  deriving DecidableEq, Repr

/-- The decoder on a byte sequence, first byte at the lowest address, with the bytes that follow the probe. -/
def decodeBytes : List Byte → Except DecodeReject (Instr × List Byte)
  | b0 :: b1 :: b2 :: b3 :: b4 :: b5 :: rest => .ok (decodeProbe ⟨b0, b1, b2, b3, b4, b5⟩, rest)
  | bytes => .error (.probeTooShort bytes.length)

/-- Byte `i` of the probe word: `P0` is bits 47 to 40, `P5` bits 7 to 0 (R66). -/
def probeByteOf (w : Word48) (i : Nat) : Byte := (w >>> (8 * (5 - i))).setWidth 8

/-- The probe whose probe word is `w` (R66). -/
def unpackProbe (w : Word48) : Probe :=
  ⟨probeByteOf w 0, probeByteOf w 1, probeByteOf w 2, probeByteOf w 3, probeByteOf w 4, probeByteOf w 5⟩

/-- The probe word `PW = be([P0, P1, P2, P3, P4, P5])` (R66). -/
def packProbe (p : Probe) : Word48 := p.p0 ++ p.p1 ++ p.p2 ++ p.p3 ++ p.p4 ++ p.p5

/-- The probe's bytes in buffer order. -/
def Probe.bytes (p : Probe) : List Byte := [p.p0, p.p1, p.p2, p.p3, p.p4, p.p5]

/-- A frame row of the opcode table: it matches a probe word `PW` when `PW & mask = value` (R66). -/
structure FrameRow where
  priority : Nat
  mask : Word48
  value : Word48
  selects : Selection
  deriving DecidableEq, Repr

/-- The seven frame rows in rising priority (R66). -/
def frameRows : List FrameRow :=
  [⟨1, 0x000000FF0000#48, 0x000000040000#48, .variant .shortBroadcast⟩,
   ⟨2, 0x000000FF0000#48, 0x000000200000#48, .variant .directed⟩,
   ⟨3, 0x000000FF0000#48, 0x000000050000#48, .variant .shortDirected⟩,
   ⟨4, 0x000000FF00FF#48, 0x000000220040#48, .variant .beacon⟩,
   ⟨5, 0x000000FF00FF#48, 0x000000220041#48, .variant .broadcast⟩,
   ⟨6, 0x000000FF0000#48, 0x000000220000#48, .illegalAddressControl⟩,
   ⟨7, 0x000000000000#48, 0x000000000000#48, .variant .unknown⟩]

def FrameRow.matchesWord (r : FrameRow) (w : Word48) : Bool := w &&& r.mask == r.value

/-- The row with the lowest priority number that matches wins (R66). -/
def tableSelect (w : Word48) : Option Selection :=
  (frameRows.find? fun r => r.matchesWord w).map FrameRow.selects

/-- Largest number of bits of a word of the operation select's space, in whole bytes: `OP` has two (R67). -/
def opSpaceBits : Nat := 8

/-- The instruction of a word of the opcode table. A word of at most one byte is in the operation select's space and its
two low bits are `OP` (mask 0x3); a longer one is a probe word, stored big-endian with `P0` at the lowest address (R66). -/
def decodeTableWord (nbits w : Nat) : Option Instr :=
  if nbits ≤ opSpaceBits then some (decodeOp (BitVec.ofNat 2 w))
  else if w < 2 ^ 48 then
    match decodeBytes (unpackProbe (BitVec.ofNat 48 w)).bytes with
    | .ok (i, _) => some i
    | .error _ => none
  else none

/-- The encoder: the probe or operation code of a well-formed instruction, from R58 and R67. -/
def encode : Instr → Code
  | .shortBroadcast length eirp msgId uid0 uid1 => .frame ⟨length, eirp, msgId, 0x04#8, uid0, uid1⟩
  | .directed length eirp subnet msgId addrControl => .frame ⟨length, eirp, subnet, 0x20#8, msgId, addrControl⟩
  | .shortDirected length eirp msgId uid0 uid1 => .frame ⟨length, eirp, msgId, 0x05#8, uid0, uid1⟩
  | .beacon length eirp subnet msgId => .frame ⟨length, eirp, subnet, 0x22#8, msgId, 0x40#8⟩
  | .broadcast length eirp subnet msgId => .frame ⟨length, eirp, subnet, 0x22#8, msgId, 0x41#8⟩
  | .illegalAddressControl length eirp subnet msgId addrControl =>
    .frame ⟨length, eirp, subnet, 0x22#8, msgId, addrControl⟩
  | .unknown length eirp byte2 frameControl byte4 byte5 =>
    .frame ⟨length, eirp, byte2, frameControl, byte4, byte5⟩
  | .calculateCrc16 => .op 0#2
  | .decodeFrame => .op 1#2
  | .selfCheck => .op 2#2
  | .unassigned => .op 3#2

end Sys2Proof
end

