-- ==== Sys2Proof/Machine/State.lean ====
section
/-! DEFINITION. The state of one engine with its host-owned operands (spec/10_state.md R11), the reasons a step can stop, and
the state after reset (R23, spec/70_reset_and_hazards.md R170). -/

namespace Sys2Proof.Machine

/-- The buffer `BUF` as a sparse list in canonical form: addresses strictly rising, no entry equal to what an unlisted
address reads as (`unlistedByte`, Machine/Ops.lean). -/
abbrev Memory := List Host.Cell

/-- `STATUS`: how the last operation ended (R17; spec/60_exceptions.md R140). `none` is "no operation has completed". -/
inductive Status where
  | none
  | ok
  | illegalAddressControl
  | truncatedFrame
  | probeOutOfRange
  | sliceOutOfRange
  deriving DecidableEq, Repr

/-- A `raise E(info)` of R140 with its payload. -/
inductive Raised where
  | illegalAddressControl (addrControl : Byte)
  | truncatedFrame (declared minimum : Byte)
  | probeOutOfRange
  | sliceOutOfRange (declared : Byte)
  deriving DecidableEq, Repr

/-- The result registers a host can read (R11, column "reader"). -/
inductive ResultReg where
  | status
  | err0
  | err1
  | variant
  | fLength
  | fEirp
  | fSubnet
  | fFrameControl
  | fMsgId
  | fAddrControl
  | fSrcUid
  | fDstUid
  | fOpenTag8
  | fOpenTag1
  | rawBase
  | rawLen
  | dLen
  | tBits
  | eCrc
  | cCrc
  | next
  | crcOut
  | selfOk
  deriving DecidableEq, Repr

/-- Why the machine stops with a fault. No operation of the engine raises one (spec/60_exceptions.md R148 gives every error
and bounds fault of the spec an effect, so those are next states); both belong to the host's port. -/
inductive Fault where
  /-- The host read a result register that holds no value. Raised by `readResult` and by `hostAdvance`, which reads `NEXT`. Safe:
  "Reading a register that holds no value is a fault of the model, not a zero" (spec/10_state.md R21; spec/00_scope.md R8;
  D18; U7: "`fault` of the model"). -/
  | noValue (reg : ResultReg)
  /-- The host wrote a buffer address at or past `BUFLEN`, which does not exist (spec/20_memory.md R30). Raised by
  `hostStore`. Safe. -/
  | noSuchAddress (address : Nat)
  deriving DecidableEq, Repr

/-- Why an instruction has no meaning. -/
inductive Refusal where
  /-- An instruction that has no meaning yet; raised by no arm. Safe. -/
  | notModelled (mnemonic : String)
  /-- `OP = 3` selects nothing and a model refuses it (spec/30_encoding.md R67, U5). Raised by `execUnassigned`. Safe. -/
  | operationNotAssigned
  /-- An `Unknown` frame under `UNKNOWN_MODE = refuse` (spec/42_variants.md R126, U1). Raised by `execUnknown` under a
  configuration this model does not have. Safe. -/
  | unknownFrameRefused
  /-- The host acted between the issue of an operation and its end. For `BUF` and `BUFLEN` the spec gives such a run no
  meaning (spec/20_memory.md R40, spec/70_reset_and_hazards.md R173, D21; U4: `refuse`); for every other act the spec is silent and
  the refusal is the model's (DESIGN CHOICE, log 24). Raised by `whenIdle`. Safe. -/
  | hostActDuringOperation
  deriving DecidableEq, Repr

/-- The operands the host owns (R11, rows `BUF` to `SEED`). The engine never writes them (R13, R18; spec/20_memory.md R34). -/
structure Operands where
  buf : Memory
  bufLen : Nat
  off : Nat
  data : List Byte
  seed : Word16
  deriving DecidableEq, Repr

/-- The working registers (R14, R15): live inside one operation only, so without a value between operations (C10). -/
structure Working where
  crc : Option Word16
  p0 : Option Byte
  p1 : Option Byte
  p2 : Option Byte
  p3 : Option Byte
  p4 : Option Byte
  p5 : Option Byte
  deriving DecidableEq, Repr

/-- The result registers of `decodeFrame` (R11, R16), each with a value or with none (R21). -/
structure Results where
  err0 : Option Byte
  err1 : Option Byte
  variant : Option Variant
  fLength : Option Byte
  fEirp : Option Byte
  fSubnet : Option Byte
  fFrameControl : Option Byte
  fMsgId : Option Byte
  fAddrControl : Option Byte
  fSrcUid : Option Word64
  fDstUid : Option Word64
  fOpenTag8 : Option (List Byte)
  fOpenTag1 : Option Byte
  rawBase : Option Nat
  rawLen : Option Byte
  dLen : Option Byte
  tBits : Option Word32
  eCrc : Option Word16
  cCrc : Option Word16
  next : Option Nat
  deriving DecidableEq, Repr

/-- No working register holds a value. -/
def Working.empty : Working := ⟨none, none, none, none, none, none, none⟩

/-- No result register of `decodeFrame` holds a value (R21). -/
def Results.empty : Results :=
  ⟨none, none, none, none, none, none, none, none, none, none, none, none, none, none, none, none, none, none, none, none⟩

/-- The machine. `op` is the operation the host has issued and the engine has not run yet (spec/30_encoding.md R67); `none` is
the idle engine (spec/70_reset_and_hazards.md R170). DESIGN CHOICE of the register form, log 1. -/
structure State where
  op : Option (BitVec 2)
  operands : Operands
  working : Working
  status : Status
  results : Results
  crcOut : Option Word16
  selfOk : Option Bool
  deriving DecidableEq, Repr

/-- Right after reset: idle, `STATUS = None`, no other register with a value (R23, R170). The operands are the host's; their
contents before the host's first load are the model's (DESIGN CHOICE, unsafe, log 2): an empty buffer, cursor 0,
empty data, the fresh seed. -/
def State.reset : State where
  op := none
  operands := { buf := [], bufLen := 0, off := 0, data := [], seed := 0xFFFF#16 }
  working := Working.empty
  status := .none
  results := Results.empty
  crcOut := none
  selfOk := none

end Sys2Proof.Machine
end

