-- ==== Sys2Proof/Machine/Flags.lean ====
section
/-! DEFINITION. The engine has no flag and no condition code (spec/10_state.md R18). Its one status value is `STATUS`: its codes,
its classes, and the status and payload of each error and fault (spec/60_exceptions.md R140, R146). -/

namespace Sys2Proof.Machine

/-- The number of a `STATUS` value for a register-level reader (R146). No rule reads it. -/
def Status.code : Status → Nat
  | .none => 0
  | .ok => 1
  | .illegalAddressControl => 2
  | .truncatedFrame => 3
  | .probeOutOfRange => 4
  | .sliceOutOfRange => 5

/-- The two decode errors of the source (R140). -/
def Status.isDecodeError : Status → Bool
  | .none => false
  | .ok => false
  | .illegalAddressControl => true
  | .truncatedFrame => true
  | .probeOutOfRange => false
  | .sliceOutOfRange => false

/-- The two bounds faults of the spec (R140). -/
def Status.isBoundsFault : Status → Bool
  | .none => false
  | .ok => false
  | .illegalAddressControl => false
  | .truncatedFrame => false
  | .probeOutOfRange => true
  | .sliceOutOfRange => true

/-- What `raise` writes to `STATUS` (R148). -/
def Raised.status : Raised → Status
  | .illegalAddressControl _ => .illegalAddressControl
  | .truncatedFrame _ _ => .truncatedFrame
  | .probeOutOfRange => .probeOutOfRange
  | .sliceOutOfRange _ => .sliceOutOfRange

/-- What `raise` writes to `ERR0` (spec/10_state.md R17, C9). -/
def Raised.err0 : Raised → Option Byte
  | .illegalAddressControl addrControl => some addrControl
  | .truncatedFrame declared _ => some declared
  | .probeOutOfRange => none
  | .sliceOutOfRange declared => some declared

/-- What `raise` writes to `ERR1` (spec/10_state.md R17). -/
def Raised.err1 : Raised → Option Byte
  | .illegalAddressControl _ => none
  | .truncatedFrame _ minimum => some minimum
  | .probeOutOfRange => none
  | .sliceOutOfRange _ => none

end Sys2Proof.Machine
end

