-- ==== Sys2Proof/Machine/Operands.lean ====
section
/-! DEFINITION. Field assembly (spec/30_encoding.md R60, R61): big-endian values of slices of a byte sequence. -/

namespace Sys2Proof.Machine

/-- `be(s)`: the unsigned value whose most significant byte is `s[0]` (spec/00_scope.md R7). -/
def be (s : List Byte) : Nat := s.foldl (fun acc b => acc * 256 + b.toNat) 0

/-- `s[i .. i+n]` (R7). -/
def slice (s : List Byte) (i n : Nat) : List Byte := (s.drop i).take n

/-- A one-byte field at offset `k` (R60). -/
def u8At (raw : List Byte) (k : Nat) : Byte := BitVec.ofNat 8 (be (slice raw k 1))

/-- A two-byte field at offset `k`, big-endian (R60, spec/20_memory.md R32). -/
def u16At (raw : List Byte) (k : Nat) : Word16 := BitVec.ofNat 16 (be (slice raw k 2))

/-- An eight-byte field at offset `k`, big-endian (R60, spec/20_memory.md R32). -/
def u64At (raw : List Byte) (k : Nat) : Word64 := BitVec.ofNat 64 (be (slice raw k 8))

/-- An eight-byte field kept as bytes in wire order (R62). -/
def bytes8At (raw : List Byte) (k : Nat) : List Byte := slice raw k 8

end Sys2Proof.Machine
end

