-- ==== Sys2Proof/Machine/Ops.lean ====
section
/-! DEFINITION. The named operations over the buffer and the registers: reads with their one bounds rule (spec/20_memory.md R33),
the host's writes in canonical form, how an operation begins (spec/10_state.md R21) and ends, and `raise` (R148). -/

namespace Sys2Proof.Machine

/-! ### The buffer -/

/-- What an unlisted address reads as. DESIGN CHOICE, unsafe, log 4: the spec gives the buffer no content before the host's
load, and at reset `BUFLEN = 0`, so no such address exists then. -/
def unlistedByte : Byte := 0#8

/-- The byte at an address. -/
def Memory.read : Memory → Nat → Byte
  | [], _ => unlistedByte
  | (a', b') :: m, a => if a = a' then b' else Memory.read m a

/-- An entry, unless it would say what an unlisted address says. -/
def Memory.entry (a : Nat) (b : Byte) (m : Memory) : Memory := if b = unlistedByte then m else (a, b) :: m

/-- Write one byte, keeping the canonical form. Only the host writes (spec/20_memory.md R34). -/
def Memory.write : Memory → Nat → Byte → Memory
  | [], a, b => Memory.entry a b []
  | (a', b') :: m, a, b =>
    if a < a' then Memory.entry a b ((a', b') :: m)
    else if a = a' then Memory.entry a b m
    else (a', b') :: Memory.write m a b

/-- Write a byte sequence from address `a` upward. -/
def Memory.writeBytes (m : Memory) (a : Nat) : List Byte → Memory
  | [] => m
  | b :: bs => Memory.writeBytes (Memory.write m a b) (a + 1) bs

/-- Every address of `m` is at least `lo`, addresses rise strictly, and no entry is the unlisted byte. -/
def Memory.wfFrom (lo : Nat) : Memory → Bool
  | [] => true
  | (a, b) :: m => decide (lo ≤ a) && b != unlistedByte && Memory.wfFrom (a + 1) m

/-- The canonical form. -/
def Memory.wf (m : Memory) : Bool := Memory.wfFrom 0 m

/-- The `n` bytes from address `a` upward. -/
def Memory.readMany (m : Memory) (a : Nat) : Nat → List Byte
  | 0 => []
  | n + 1 => Memory.read m a :: Memory.readMany m (a + 1) n

/-- `BUF[addr]`: a byte of the buffer, with a value only below `BUFLEN` (R30, R33). -/
def State.readByte (s : State) (addr : Nat) : Option Byte :=
  if addr < s.operands.bufLen then some (Memory.read s.operands.buf addr) else none

/-- `MemBytes(addr, n)`: defined only when `addr + n <= BUFLEN` (R33). -/
def memBytes (s : State) (addr n : Nat) : Option (List Byte) :=
  if addr + n ≤ s.operands.bufLen then some (Memory.readMany s.operands.buf addr n) else none

/-- `MemRead(addr, n) = be(MemBytes(addr, n))` (R33). -/
def memRead (s : State) (addr n : Nat) : Option Nat := (memBytes s addr n).map be

/-- `PROBE_LEN` (spec/00_scope.md R5). -/
def probeLen : Nat := 6

/-- The six probe bytes at the cursor, or none when they do not all exist (spec/41_dispatch.md R101). -/
def fetchProbe (s : State) : Option Probe :=
  match memBytes s s.operands.off probeLen with
  | some [b0, b1, b2, b3, b4, b5] => some ⟨b0, b1, b2, b3, b4, b5⟩
  | _ => none

/-! ### How an operation begins and ends -/

/-- What `decodeFrame` invalidates before it does anything (spec/10_state.md R21; spec/41_dispatch.md R113, first line). The issued
operation is taken off the port. `CRCOUT` and `SELFOK` stay: R21 invalidates them "when the operation is the one
that writes them" (DEDUCED, unsafe, log 5). -/
def beginDecode (s : State) : State := { s with op := none, status := .none, results := Results.empty }

/-- What `calculateCrc16` invalidates (R21). -/
def beginCrc (s : State) : State := { beginDecode s with crcOut := none }

/-- What `selfCheck` invalidates (R21). -/
def beginSelfCheck (s : State) : State := { beginDecode s with selfOk := none }

/-- `x[P_i] <- MemRead(OFF + i, 1)` for `i = 0..5` (spec/41_dispatch.md R101). -/
def latchProbe (p : Probe) (s : State) : State :=
  { s with working := { s.working with
      p0 := some p.p0, p1 := some p.p1, p2 := some p.p2, p3 := some p.p3, p4 := some p.p4, p5 := some p.p5 } }

/-- `x[CRC] <- v` (spec/10_state.md R14). -/
def writeCrc (v : Word16) (s : State) : State := { s with working := { s.working with crc := some v } }

/-- The end of every operation: the working registers hold nothing afterwards (spec/10_state.md R11, column "live"; C10). -/
def retire (s : State) : State := { s with working := Working.empty }

/-- The next state of an operation that ends normally: `x[STATUS] <- Ok`. -/
def finishOk (s : State) : Host.Outcome State Fault Refusal := .next (retire { s with status := .ok })

/-- `raise E(info)`, whole (spec/60_exceptions.md R148): `STATUS` and the payload are written and the operation ends. Nothing is
saved and control goes nowhere; there is no return operation beside it (R149): the engine accepts the next
operation at once. -/
def raise (e : Raised) (s : State) : Host.Outcome State Fault Refusal :=
  .next (retire { s with status := e.status, results := { s.results with err0 := e.err0, err1 := e.err1 } })

end Sys2Proof.Machine
end

