-- ==== Sys2Proof/Machine/Registry.lean ====
section
/-! DEFINITION. The Frame Layout Registry, a constant table (spec/30_encoding.md R71): the six layouts, the minimum sizes they
give, and the configuration the machine runs with. -/

namespace Sys2Proof.Machine

/-- `ShortBroadcast` (R52). -/
def layoutShortBroadcast : List FieldSpec :=
  [⟨.length, 0, 1, true⟩, ⟨.eirp, 1, 1, true⟩, ⟨.msgId, 2, 1, true⟩, ⟨.frameControl, 3, 1, true⟩, ⟨.srcUid, 4, 8, true⟩]

/-- `ShortDirected` (R53). -/
def layoutShortDirected : List FieldSpec :=
  [⟨.length, 0, 1, true⟩, ⟨.eirp, 1, 1, true⟩, ⟨.msgId, 2, 1, true⟩, ⟨.frameControl, 3, 1, true⟩, ⟨.dstUid, 4, 8, true⟩]

/-- `Directed` (R54): its open tag is one byte (C4). -/
def layoutDirected : List FieldSpec :=
  [⟨.length, 0, 1, true⟩, ⟨.eirp, 1, 1, true⟩, ⟨.subnet, 2, 1, true⟩, ⟨.frameControl, 3, 1, true⟩,
   ⟨.msgId, 4, 1, true⟩, ⟨.addrControl, 5, 1, true⟩, ⟨.srcUid, 6, 8, true⟩, ⟨.dstUid, 14, 8, true⟩,
   ⟨.openTag1, 22, 1, true⟩]

/-- `Beacon` (R55, C2): the length byte is on the wire and not in the record. -/
def layoutBeacon : List FieldSpec :=
  [⟨.length, 0, 1, false⟩, ⟨.eirp, 1, 1, true⟩, ⟨.subnet, 2, 1, true⟩, ⟨.frameControl, 3, 1, true⟩,
   ⟨.msgId, 4, 1, true⟩, ⟨.addrControl, 5, 1, true⟩, ⟨.srcUid, 6, 8, true⟩]

/-- `Broadcast` (R56): the whole `Beacon` layout and then eight open-tag bytes (D6). -/
def layoutBroadcast : List FieldSpec := layoutBeacon ++ [⟨.openTag8, 14, 8, true⟩]

/-- `Unknown` (R57). -/
def layoutUnknown : List FieldSpec := [⟨.length, 0, 1, true⟩, ⟨.eirp, 1, 1, true⟩]

def layoutOf : Variant → List FieldSpec
  | .shortBroadcast => layoutShortBroadcast
  | .directed => layoutDirected
  | .shortDirected => layoutShortDirected
  | .beacon => layoutBeacon
  | .broadcast => layoutBroadcast
  | .unknown => layoutUnknown

/-- `PREAMBLE_BITS` (spec/00_scope.md R5). -/
def preambleBits : Nat := 48

/-- `SYNC_BITS` (spec/00_scope.md R5). -/
def syncBits : Nat := 16

/-- `LENGTH_FIELD_BITS` (spec/00_scope.md R5). -/
def lengthFieldBits : Nat := 8

/-- `CHECKSUM_FIELD_BITS` (spec/00_scope.md R5): DESIGN CHOICE of the spec (D7, log 7). -/
def checksumFieldBits : Nat := 16

/-- `OVERHEAD_BITS`, the sum of the four (spec/00_scope.md R5; D7, log 7). -/
def overheadBits : Nat := preambleBits + syncBits + lengthFieldBits + checksumFieldBits

/-- The configuration of this model: the spec's own choices (R5; D7, D10; logs 7, 8, 9). -/
def config : Config where
  checksumFieldBits := checksumFieldBits
  overheadBits := overheadBits
  unknownMode := .uniform
  layout := layoutOf

/-- "sum of field widths": the minimum size a layout gives. -/
def layoutSize (layout : List FieldSpec) : Nat := (layout.map FieldSpec.width).sum

/-- `MIN[v]` (R59). -/
def minSize (v : Variant) : Nat := layoutSize (config.layout v)

/-- `SEED_FRESH` (spec/00_scope.md R5). -/
def seedFresh : Word16 := 0xFFFF#16

/-- `CHECKSUM_BYTES` (spec/00_scope.md R5). -/
def checksumBytes : Nat := 2

end Sys2Proof.Machine
end

