-- ==== Sys2Proof/Machine/Checksum.lean ====
section
/-! DEFINITION. The Checksum Engine (spec/40_checksum.md): `crc_step`, `crc16`, and the host operations `calculateCrc16` and
`selfCheck`. -/

namespace Sys2Proof.Machine

/-- Step 1 of R80: rotate the two bytes of the accumulator. The masks `& 0xFFFF` of R80 are the width of the word (R89). -/
def crcSwap (c : Word16) : Word16 := ((c >>> 8) &&& 0xFF#16) ||| (c <<< 8)

/-- Step 2 of R80. -/
def crcMix (b : Byte) (c : Word16) : Word16 := c ^^^ b.setWidth 16

/-- Step 3 of R80. -/
def crcFold4 (c : Word16) : Word16 := c ^^^ ((c &&& 0xFF#16) >>> 4)

/-- Step 4 of R80. -/
def crcFold12 (c : Word16) : Word16 := c ^^^ (c <<< 12)

/-- Step 5 of R80. -/
def crcFold5 (c : Word16) : Word16 := c ^^^ ((c &&& 0xFF#16) <<< 5)

/-- `crc_step(c, b)` (R80): the five steps, each on what the one before it left. -/
def crcStep (c : Word16) (b : Byte) : Word16 := crcFold5 (crcFold12 (crcFold4 (crcMix b (crcSwap c))))

/-- `crc16(data, seed)` (R82): lowest index first. -/
def crc16 (data : List Byte) (seed : Word16) : Word16 := data.foldl crcStep seed

/-- `calculateCrc16` (R82, R85): `CRC` runs from `SEED` over `DATA`, and its last value is `CRCOUT`. -/
def execCalculateCrc16 (s : State) : Host.Outcome State Fault Refusal :=
  let crc := crc16 s.operands.data s.operands.seed
  finishOk { writeCrc crc (beginCrc s) with crcOut := some crc }

/-- `CHECK_INPUT`, the ASCII bytes of "123456789" (spec/00_scope.md R5). -/
def checkInput : List Byte := [0x31#8, 0x32#8, 0x33#8, 0x34#8, 0x35#8, 0x36#8, 0x37#8, 0x38#8, 0x39#8]

/-- `CHECK_VALUE` (spec/00_scope.md R5). -/
def checkValue : Word16 := 0x29B1#16

/-- `selfCheck` (R87). -/
def execSelfCheck (s : State) : Host.Outcome State Fault Refusal :=
  let crc := crc16 checkInput seedFresh
  finishOk { writeCrc crc (beginSelfCheck s) with selfOk := some (crc == checkValue) }

end Sys2Proof.Machine
end

