-- ==== Sys2Proof/Machine/Variants.lean ====
section
/-! DEFINITION. The frame-variant decoders (spec/42_variants.md R120 to R126) and the meaning of each frame instruction: steps 3 to
5 of `decodeFrame` (spec/41_dispatch.md R105 to R110) for the probe the instruction stands for. -/

namespace Sys2Proof.Machine

/-! ### The six parse functions: each writes the fields its layout lists and nothing else (R120) -/

/-- R121. -/
def decodeShortBroadcast (raw : List Byte) (r : Results) : Results :=
  { r with fLength := some (u8At raw 0), fEirp := some (u8At raw 1), fMsgId := some (u8At raw 2),
           fFrameControl := some (u8At raw 3), fSrcUid := some (u64At raw 4) }

/-- R122. -/
def decodeDirected (raw : List Byte) (r : Results) : Results :=
  { r with fLength := some (u8At raw 0), fEirp := some (u8At raw 1), fSubnet := some (u8At raw 2),
           fFrameControl := some (u8At raw 3), fMsgId := some (u8At raw 4), fAddrControl := some (u8At raw 5),
           fSrcUid := some (u64At raw 6), fDstUid := some (u64At raw 14), fOpenTag1 := some (u8At raw 22) }

/-- R123. -/
def decodeShortDirected (raw : List Byte) (r : Results) : Results :=
  { r with fLength := some (u8At raw 0), fEirp := some (u8At raw 1), fMsgId := some (u8At raw 2),
           fFrameControl := some (u8At raw 3), fDstUid := some (u64At raw 4) }

/-- R124: no `length` member (C2). -/
def decodeBeacon (raw : List Byte) (r : Results) : Results :=
  { r with fEirp := some (u8At raw 1), fSubnet := some (u8At raw 2), fFrameControl := some (u8At raw 3),
           fMsgId := some (u8At raw 4), fAddrControl := some (u8At raw 5), fSrcUid := some (u64At raw 6) }

/-- R125: no `length` member; the open tag stays bytes (R62). -/
def decodeBroadcast (raw : List Byte) (r : Results) : Results :=
  { r with fEirp := some (u8At raw 1), fSubnet := some (u8At raw 2), fFrameControl := some (u8At raw 3),
           fMsgId := some (u8At raw 4), fAddrControl := some (u8At raw 5), fSrcUid := some (u64At raw 6),
           fOpenTag8 := some (bytes8At raw 14) }

/-- R126: length and eirp only. -/
def decodeUnknown (raw : List Byte) (r : Results) : Results :=
  { r with fLength := some (u8At raw 0), fEirp := some (u8At raw 1) }

/-- `decode_v` (spec/41_dispatch.md R113). -/
def decodeVariant : Variant → List Byte → Results → Results
  | .shortBroadcast => decodeShortBroadcast
  | .directed => decodeDirected
  | .shortDirected => decodeShortDirected
  | .beacon => decodeBeacon
  | .broadcast => decodeBroadcast
  | .unknown => decodeUnknown

/-! ### Steps 3 to 5, the same for every variant -/

/-- `TBITS` (spec/41_dispatch.md R109): `zext_32(L) * 8 + OVERHEAD_BITS`. -/
def totalBits (length : Byte) : Word32 := length.setWidth 32 * 8#32 + BitVec.ofNat 32 config.overheadBits

/-- Step 4 after its bounds check, and step 5 (R106 to R110): the message of variant `v` in the slice `raw`, whose declared
length is `length`. Its checksum runs in `CRC` over all of `raw` but the last two bytes, from the fresh seed (R108). -/
def writeMessage (v : Variant) (length : Byte) (raw : List Byte) (s : State) : State :=
  let crc := crc16 (raw.take (length.toNat - checksumBytes)) seedFresh
  { writeCrc crc s with
    results := { decodeVariant v raw s.results with
      variant := some v
      rawBase := some s.operands.off
      rawLen := some length
      dLen := some length
      tBits := some (totalBits length)
      eCrc := some (u16At raw (length.toNat - checksumBytes))
      cCrc := some crc
      next := some (s.operands.off + length.toNat) } }

/-- A frame of variant `v` whose probe is `p`, at the cursor: the probe's own bounds (R101), the length check (R105), the slice
and its bounds (R106), the message (R107 to R110), in the order of R113. -/
def runVariant (v : Variant) (p : Probe) (s : State) : Host.Outcome State Fault Refusal :=
  if s.operands.bufLen < s.operands.off + probeLen then raise .probeOutOfRange (beginDecode s)
  else if p.p0.toNat < minSize v then
    raise (.truncatedFrame p.p0 (BitVec.ofNat 8 (minSize v))) (latchProbe p (beginDecode s))
  else
    match memBytes s s.operands.off p.p0.toNat with
    | none => raise (.sliceOutOfRange p.p0) (latchProbe p (beginDecode s))
    | some raw => finishOk (writeMessage v p.p0 raw (latchProbe p (beginDecode s)))

/-! ### One meaning per frame row -/

/-- R121: frame-control `0x04`. -/
def execShortBroadcast (length eirp msgId uid0 uid1 : Byte) (s : State) : Host.Outcome State Fault Refusal :=
  runVariant .shortBroadcast ⟨length, eirp, msgId, 0x04#8, uid0, uid1⟩ s

/-- R122: frame-control `0x20`; the address-control byte may be anything. -/
def execDirected (length eirp subnet msgId addrControl : Byte) (s : State) : Host.Outcome State Fault Refusal :=
  runVariant .directed ⟨length, eirp, subnet, 0x20#8, msgId, addrControl⟩ s

/-- R123: frame-control `0x05`. -/
def execShortDirected (length eirp msgId uid0 uid1 : Byte) (s : State) : Host.Outcome State Fault Refusal :=
  runVariant .shortDirected ⟨length, eirp, msgId, 0x05#8, uid0, uid1⟩ s

/-- R124: frame-control `0x22`, address-control `0x40`. -/
def execBeacon (length eirp subnet msgId : Byte) (s : State) : Host.Outcome State Fault Refusal :=
  runVariant .beacon ⟨length, eirp, subnet, 0x22#8, msgId, 0x40#8⟩ s

/-- R125: frame-control `0x22`, address-control `0x41`. -/
def execBroadcast (length eirp subnet msgId : Byte) (s : State) : Host.Outcome State Fault Refusal :=
  runVariant .broadcast ⟨length, eirp, subnet, 0x22#8, msgId, 0x41#8⟩ s

/-- R126: any other frame-control byte. DESIGN CHOICE of the spec (D10, log 8): under `UNKNOWN_MODE = uniform`, the mode of
this model, it is decoded like every other variant. -/
def execUnknown (length eirp byte2 frameControl byte4 byte5 : Byte) (s : State) : Host.Outcome State Fault Refusal :=
  match config.unknownMode with
  | .uniform => runVariant .unknown ⟨length, eirp, byte2, frameControl, byte4, byte5⟩ s
  | .refuse => .refused .unknownFrameRefused

/-- R141, R103: frame-control `0x22` with any other address-control byte. Raised in step 2, before the length byte is looked
at (R147). -/
def execIllegalAddressControl (length eirp subnet msgId addrControl : Byte) (s : State) :
    Host.Outcome State Fault Refusal :=
  if s.operands.bufLen < s.operands.off + probeLen then raise .probeOutOfRange (beginDecode s)
  else
    raise (.illegalAddressControl addrControl)
      (latchProbe ⟨length, eirp, subnet, 0x22#8, msgId, addrControl⟩ (beginDecode s))

end Sys2Proof.Machine
end

