-- ==== Sys2Proof/Machine/Dispatcher.lean ====
section
/-! DEFINITION. The Frame Dispatcher (spec/41_dispatch.md R113) and the unassigned operation code. -/

namespace Sys2Proof.Machine

/-- `decodeFrame` (R100, R113): the probe (R101), the selection (R102 to R104), and then the selected frame instruction runs
(R105 to R110). `OFF` is read and never written (R110). -/
def execDecodeFrame (s : State) : Host.Outcome State Fault Refusal :=
  match fetchProbe s with
  | none => raise .probeOutOfRange (beginDecode s)
  | some p =>
    match select p with
    | .variant .shortBroadcast => execShortBroadcast p.p0 p.p1 p.p2 p.p4 p.p5 s
    | .variant .directed => execDirected p.p0 p.p1 p.p2 p.p4 p.p5 s
    | .variant .shortDirected => execShortDirected p.p0 p.p1 p.p2 p.p4 p.p5 s
    | .variant .beacon => execBeacon p.p0 p.p1 p.p2 p.p4 s
    | .variant .broadcast => execBroadcast p.p0 p.p1 p.p2 p.p4 s
    | .variant .unknown => execUnknown p.p0 p.p1 p.p2 p.p3 p.p4 p.p5 s
    | .illegalAddressControl => execIllegalAddressControl p.p0 p.p1 p.p2 p.p4 p.p5 s

/-- `OP = 3` selects nothing (spec/30_encoding.md R67: "a model refuses it"). -/
def execUnassigned (_ : State) : Host.Outcome State Fault Refusal := .refused .operationNotAssigned

end Sys2Proof.Machine
end

