-- ==== Sys2Proof/Machine/Dispatch.lean ====
section
/-! DEFINITION. Which meaning each instruction has. -/

namespace Sys2Proof.Machine

def exec (i : Instr) (s : State) : Host.Outcome State Fault Refusal :=
  match i with
  | .shortBroadcast length eirp msgId uid0 uid1 => Sys2Proof.Machine.execShortBroadcast length eirp msgId uid0 uid1 s
  | .directed length eirp subnet msgId addrControl => Sys2Proof.Machine.execDirected length eirp subnet msgId addrControl s
  | .shortDirected length eirp msgId uid0 uid1 => Sys2Proof.Machine.execShortDirected length eirp msgId uid0 uid1 s
  | .beacon length eirp subnet msgId => Sys2Proof.Machine.execBeacon length eirp subnet msgId s
  | .broadcast length eirp subnet msgId => Sys2Proof.Machine.execBroadcast length eirp subnet msgId s
  | .illegalAddressControl length eirp subnet msgId addrControl => Sys2Proof.Machine.execIllegalAddressControl length eirp subnet msgId addrControl s
  | .unknown length eirp byte2 frameControl byte4 byte5 => Sys2Proof.Machine.execUnknown length eirp byte2 frameControl byte4 byte5 s
  | .calculateCrc16 => Sys2Proof.Machine.execCalculateCrc16 s
  | .decodeFrame => Sys2Proof.Machine.execDecodeFrame s
  | .selfCheck => Sys2Proof.Machine.execSelfCheck s
  | .unassigned => Sys2Proof.Machine.execUnassigned s

end Sys2Proof.Machine
end

