-- ==== Sys2Proof/Machine/HostPort.lean ====
section
/-! DEFINITION. What the host can do to the machine between operations (spec/10_state.md R10, column "writer" of R11;
spec/70_reset_and_hazards.md R171). An operation is atomic from its issue to its end (spec/00_scope.md R6), so no act of the host lands
between `hostIssue` and the step that runs the operation (log 24). -/

namespace Sys2Proof.Machine

/-! ### What the acts change -/

/-- `BUF` holds these bytes and `BUFLEN` is their count (R171). The results of earlier operations stay: `RAWBASE` and `RAWLEN` are
numbers (R174). -/
def State.withBuffer (bytes : List Byte) (s : State) : State :=
  { s with operands := { s.operands with buf := Memory.writeBytes [] 0 bytes, bufLen := bytes.length } }

/-- One byte of `BUF` is `b`. -/
def State.withByte (addr : Nat) (b : Byte) (s : State) : State :=
  { s with operands := { s.operands with buf := Memory.write s.operands.buf addr b } }

/-- The cursor is `off`. -/
def State.withOffset (off : Nat) (s : State) : State := { s with operands := { s.operands with off := off } }

/-- `DATA` and `SEED` are these. -/
def State.withChecksumOperands (data : List Byte) (seed : Word16) (s : State) : State :=
  { s with operands := { s.operands with data := data, seed := seed } }

/-- The operation with this code has been issued (spec/30_encoding.md R67). -/
def State.issue (code : BitVec 2) (s : State) : State := { s with op := some code }

/-! ### The acts -/

/-- An act of the host has its result only while no issued operation waits for its end. The host "must not change `BUF` or
`BUFLEN`" before then, and a run in which it does has no meaning (spec/20_memory.md R40; R173; D21; U4). A second issue, a new
`OFF`, `DATA` or `SEED` and a read of a result in that interval, on which the spec is silent, are refused too (DESIGN CHOICE,
safe, log 24). -/
def whenIdle {α : Type} (s : State) (result : Host.Outcome α Fault Refusal) : Host.Outcome α Fault Refusal :=
  match s.op with
  | none => result
  | some _ => .refused .hostActDuringOperation

/-- Load the receive buffer: the complete received bytes and their count (R171). -/
def hostLoad (bytes : List Byte) (s : State) : Host.Outcome State Fault Refusal :=
  whenIdle s (.next (s.withBuffer bytes))

/-- Rewrite one byte of the buffer (spec/20_memory.md R43). An address at or past `BUFLEN` does not exist (R30; the fault is
the model's, DESIGN CHOICE, log 17). -/
def hostStore (addr : Nat) (b : Byte) (s : State) : Host.Outcome State Fault Refusal :=
  whenIdle s (if addr < s.operands.bufLen then .next (s.withByte addr b) else .fault (.noSuchAddress addr))

/-- Set the cursor: any natural number (spec/41_dispatch.md R117). -/
def hostSetOffset (off : Nat) (s : State) : Host.Outcome State Fault Refusal := whenIdle s (.next (s.withOffset off))

/-- Supply the operands of `calculateCrc16` (spec/10_state.md R24). -/
def hostSetData (data : List Byte) (seed : Word16) (s : State) : Host.Outcome State Fault Refusal :=
  whenIdle s (.next (s.withChecksumOperands data seed))

/-- Issue an operation (spec/30_encoding.md R67). An operation already issued is not replaced: it "runs to its outcome; nothing
can abort it" (spec/60_exceptions.md R150), and that the second issue is refused is the model's (DESIGN CHOICE, log 24). -/
def hostIssue (code : BitVec 2) (s : State) : Host.Outcome State Fault Refusal := whenIdle s (.next (s.issue code))

/-- Copy `NEXT` into `OFF` (spec/10_state.md R13). On any outcome but `Ok`, "`NEXT` holds no value" (R13;
spec/60_exceptions.md R148), so there is nothing to copy, and "Reading a register that holds no value is a fault of the model, not a
zero" (R21; D18, U7). -/
def hostAdvance (s : State) : Host.Outcome State Fault Refusal :=
  whenIdle s
    (match s.results.next with
    | some n => .next (s.withOffset n)
    | none => .fault (.noValue .next))

/-- The content of a result register. -/
inductive RegValue where
  | status (v : Status)
  | byte (v : Byte)
  | word16 (v : Word16)
  | word32 (v : Word32)
  | word64 (v : Word64)
  | nat (v : Nat)
  | bytes (v : List Byte)
  | tag (v : Variant)
  | bit (v : Bool)
  deriving DecidableEq, Repr

/-- What a result register holds; `none` is "no value". `STATUS` always holds one (R11: `None` before any operation). -/
def State.resultReg (s : State) : ResultReg → Option RegValue
  | .status => some (.status s.status)
  | .err0 => s.results.err0.map .byte
  | .err1 => s.results.err1.map .byte
  | .variant => s.results.variant.map .tag
  | .fLength => s.results.fLength.map .byte
  | .fEirp => s.results.fEirp.map .byte
  | .fSubnet => s.results.fSubnet.map .byte
  | .fFrameControl => s.results.fFrameControl.map .byte
  | .fMsgId => s.results.fMsgId.map .byte
  | .fAddrControl => s.results.fAddrControl.map .byte
  | .fSrcUid => s.results.fSrcUid.map .word64
  | .fDstUid => s.results.fDstUid.map .word64
  | .fOpenTag8 => s.results.fOpenTag8.map .bytes
  | .fOpenTag1 => s.results.fOpenTag1.map .byte
  | .rawBase => s.results.rawBase.map .nat
  | .rawLen => s.results.rawLen.map .byte
  | .dLen => s.results.dLen.map .byte
  | .tBits => s.results.tBits.map .word32
  | .eCrc => s.results.eCrc.map .word16
  | .cCrc => s.results.cCrc.map .word16
  | .next => s.results.next.map .nat
  | .crcOut => s.crcOut.map .word16
  | .selfOk => s.selfOk.map .bit

/-- The host's read of a result register, `x[NAME]`. "Reading a register that holds no value is a model fault" (spec/00_scope.md R8),
"not a zero" (spec/10_state.md R21): after reset, after an error, or for a field of another variant (U7: "Never zero, never the
previous operation's value"; D18). -/
def readResult (reg : ResultReg) (s : State) : Host.Outcome RegValue Fault Refusal :=
  whenIdle s
    (match s.resultReg reg with
    | some v => .next v
    | none => .fault (.noValue reg))

end Sys2Proof.Machine
end

