-- ==== Sys2Proof/Machine/Step.lean ====
section
/-! DEFINITION. One step of the engine, and how the host's tables place an instruction. -/

namespace Sys2Proof.Machine

/-- One host operation is one atomic step (spec/00_scope.md R6). The engine runs the operation the host issued; with none issued
it is idle, and idle changes nothing (spec/60_exceptions.md R156; log 1). Every operation takes itself off the port. -/
def step (s : State) : Host.Outcome State Fault Refusal :=
  match s.op with
  | none => .next s
  | some code => exec (decodeOp code) s

/-- The longest frame (spec/30_encoding.md R65). -/
def longestFrame : Nat := 255

/-- The instruction of an opcode-table word, placed to run next (log 12). An operation code is issued. A frame's probe is stored
at the cursor, zeros after it up to the longest frame, with `BUFLEN` reaching that far, and `decodeFrame` is issued. -/
def State.withFetchWord (s : State) (nbits w : Nat) : State :=
  if nbits ≤ opSpaceBits then s.issue (BitVec.ofNat 2 w)
  else
    let frame := (unpackProbe (BitVec.ofNat 48 w)).bytes ++ List.replicate (longestFrame - probeLen) 0#8
    { s with
      op := some 1#2
      operands := { s.operands with
        buf := Memory.writeBytes s.operands.buf s.operands.off frame
        bufLen := max s.operands.bufLen (s.operands.off + longestFrame) } }

end Sys2Proof.Machine
end

