-- ==== Sys2Proof/Safety.lean ====
section
/-! DEFINITION. The terms claims use: the coherent states (an invariant of the machine), the decoded message written straight from
the buffer, the error state, the host's checksum comparison, and a walk over a buffer with its ends. -/

namespace Sys2Proof.Machine

/-! ### What the buffer says, by direct reads (spec/30_encoding.md R60) -/

/-- The byte at frame-relative offset `k`. -/
def byteAtCursor (s : State) (k : Nat) : Byte := Memory.read s.operands.buf (s.operands.off + k)

/-- The big-endian value of the `w` bytes at frame-relative offset `k`. -/
def valueAtCursor (s : State) (k w : Nat) : Nat := be (Memory.readMany s.operands.buf (s.operands.off + k) w)

/-- The eight-byte field at frame-relative offset `k`. -/
def uidAtCursor (s : State) (k : Nat) : Word64 := BitVec.ofNat 64 (valueAtCursor s k 8)

/-- The frame bytes `raw[0 .. n]`. -/
def rawAtCursor (s : State) (n : Nat) : List Byte := Memory.readMany s.operands.buf s.operands.off n

/-- The six probe bytes at the cursor, whether or not `BUFLEN` reaches them. -/
def probeAtCursor (s : State) : Probe :=
  ⟨byteAtCursor s 0, byteAtCursor s 1, byteAtCursor s 2, byteAtCursor s 3, byteAtCursor s 4, byteAtCursor s 5⟩

/-- The state after an operation that decoded a frame of variant `v` and declared length `length` with the `F_*` registers of
`fields`: the common part of the message (spec/41_dispatch.md R106 to R110), the operands untouched (R110; spec/20_memory.md
R34; that `DATA` and `SEED` stay is DEDUCED, log 20), `CRCOUT` and `SELFOK` kept (DEDUCED, log 5), the engine idle. -/
def decodedState (s : State) (v : Variant) (length : Byte) (fields : Results) : State where
  op := none
  operands := s.operands
  working := Working.empty
  status := .ok
  results := { fields with
    err0 := none
    err1 := none
    variant := some v
    rawBase := some s.operands.off
    rawLen := some length
    dLen := some length
    tBits := some (BitVec.ofNat 32 (length.toNat * 8 + config.overheadBits))
    eCrc := some (BitVec.ofNat 16 (valueAtCursor s (length.toNat - 2) 2))
    cCrc := some (crc16 (rawAtCursor s (length.toNat - 2)) 0xFFFF#16)
    next := some (s.operands.off + length.toNat) }
  crcOut := s.crcOut
  selfOk := s.selfOk

/-- The state after an operation that raised (spec/60_exceptions.md R148): `STATUS` and the payload, and no message. For the two bounds
faults that it is a next state at all is DEDUCED (log 6), and `CRCOUT` and `SELFOK` are kept (DEDUCED, log 5). -/
def errorState (s : State) (status : Status) (err0 err1 : Option Byte) : State where
  op := none
  operands := s.operands
  working := Working.empty
  status := status
  results := { Results.empty with err0 := err0, err1 := err1 }
  crcOut := s.crcOut
  selfOk := s.selfOk

/-- One field of a layout table, read straight from the buffer into its register (spec/30_encoding.md R52 to R57, R60). -/
def readField (s : State) (r : Results) (f : FieldSpec) : Results :=
  if f.inFields then
    match f.field with
    | .length => { r with fLength := some (BitVec.ofNat 8 (valueAtCursor s f.offset f.width)) }
    | .eirp => { r with fEirp := some (BitVec.ofNat 8 (valueAtCursor s f.offset f.width)) }
    | .subnet => { r with fSubnet := some (BitVec.ofNat 8 (valueAtCursor s f.offset f.width)) }
    | .frameControl => { r with fFrameControl := some (BitVec.ofNat 8 (valueAtCursor s f.offset f.width)) }
    | .msgId => { r with fMsgId := some (BitVec.ofNat 8 (valueAtCursor s f.offset f.width)) }
    | .addrControl => { r with fAddrControl := some (BitVec.ofNat 8 (valueAtCursor s f.offset f.width)) }
    | .srcUid => { r with fSrcUid := some (BitVec.ofNat 64 (valueAtCursor s f.offset f.width)) }
    | .dstUid => { r with fDstUid := some (BitVec.ofNat 64 (valueAtCursor s f.offset f.width)) }
    | .openTag8 =>
      { r with fOpenTag8 := some (Memory.readMany s.operands.buf (s.operands.off + f.offset) f.width) }
    | .openTag1 => { r with fOpenTag1 := some (BitVec.ofNat 8 (valueAtCursor s f.offset f.width)) }
  else r

/-- The `F_*` registers the registry's table gives a frame of variant `v` at the cursor (spec/30_encoding.md R71). -/
def registryFields (s : State) (v : Variant) : Results := (config.layout v).foldl (readField s) Results.empty

/-! ### Coherent states -/

/-- Whether the register of a field holds a value. -/
def Results.holds (r : Results) : Field → Bool
  | .length => r.fLength.isSome
  | .eirp => r.fEirp.isSome
  | .subnet => r.fSubnet.isSome
  | .frameControl => r.fFrameControl.isSome
  | .msgId => r.fMsgId.isSome
  | .addrControl => r.fAddrControl.isSome
  | .srcUid => r.fSrcUid.isSome
  | .dstUid => r.fDstUid.isSome
  | .openTag8 => r.fOpenTag8.isSome
  | .openTag1 => r.fOpenTag1.isSome

/-- The members of a variant's record (last column of the tables of R52 to R57). -/
def recordFields (v : Variant) : List Field :=
  ((config.layout v).filter FieldSpec.inFields).map FieldSpec.field

/-- What `F_FRAMECONTROL` of a variant always is (R52 to R56); `Unknown` has no such member (R57). -/
def frameControlOf : Variant → Option Byte
  | .shortBroadcast => some 0x04#8
  | .directed => some 0x20#8
  | .shortDirected => some 0x05#8
  | .beacon => some 0x22#8
  | .broadcast => some 0x22#8
  | .unknown => none

/-- The result registers hold a decoded message of variant `v`: exactly its record's fields (R120, spec/10_state.md R21), with the
discriminants that selected it, and a common part that agrees with itself (spec/41_dispatch.md R105, R106, R109, R110). -/
def Results.IsMessage (r : Results) (v : Variant) (base : Nat) (length : Byte) : Prop :=
  r.err0 = none ∧ r.err1 = none ∧ r.variant = some v ∧
  r.rawBase = some base ∧ r.rawLen = some length ∧ r.dLen = some length ∧
  r.tBits = some (BitVec.ofNat 32 (length.toNat * 8 + config.overheadBits)) ∧
  r.next = some (base + length.toNat) ∧ minSize v ≤ length.toNat ∧
  r.eCrc.isSome = true ∧ r.cCrc.isSome = true ∧
  (∀ f : Field, r.holds f = true ↔ f ∈ recordFields v) ∧
  (∀ b : Byte, r.fLength = some b → b = length) ∧
  r.fFrameControl = frameControlOf v ∧
  (v = .beacon → r.fAddrControl = some 0x40#8) ∧ (v = .broadcast → r.fAddrControl = some 0x41#8) ∧
  (∀ tag : List Byte, r.fOpenTag8 = some tag → tag.length = 8)

/-- What the result registers hold for each `STATUS` (spec/10_state.md R17, R21; spec/60_exceptions.md R140 to R145, R148). -/
def State.ResultsMatchStatus (s : State) : Prop :=
  match s.status with
  | .none => s.results = Results.empty ∧ s.crcOut = none ∧ s.selfOk = none
  | .ok => s.results = Results.empty ∨ ∃ v base length, s.results.IsMessage v base length
  | .illegalAddressControl =>
    ∃ a : Byte, a ≠ 0x40#8 ∧ a ≠ 0x41#8 ∧ s.results = { Results.empty with err0 := some a }
  | .truncatedFrame =>
    ∃ (v : Variant) (declared : Byte), declared.toNat < minSize v ∧
      s.results = { Results.empty with err0 := some declared, err1 := some (BitVec.ofNat 8 (minSize v)) }
  | .probeOutOfRange => s.results = Results.empty
  | .sliceOutOfRange =>
    ∃ declared : Byte, 2 ≤ declared.toNat ∧ s.results = { Results.empty with err0 := some declared }

/-- A coherent state: the buffer in canonical form, no working register with a value (C10), a self-check that never failed
(spec/40_checksum.md R87), and results that fit `STATUS`. -/
def State.Coherent (s : State) : Prop :=
  Memory.wf s.operands.buf = true ∧ s.working = Working.empty ∧ s.selfOk ≠ some false ∧ s.ResultsMatchStatus

/-! ### The host's policy -/

/-- The host's comparison of the two checksums (spec/10_state.md R18: defined outside the machine). -/
def State.ChecksumsAgree (s : State) : Prop := ∃ k : Word16, s.results.eCrc = some k ∧ s.results.cCrc = some k

/-- How a walk ends (spec/70_reset_and_hazards.md R181). `nothingLeft` and `unfinished` are the model's (DESIGN CHOICE, log 18):
a first operation at or past the end of the buffer, and the fuel of this definition run out. `stopped` is a step without a
next state. -/
inductive WalkEnd where
  | clean
  | residue
  | decodeError
  | nothingLeft
  | stopped
  | unfinished
  deriving DecidableEq, Repr

/-- A walk's successful operations, its end and the state it ended in. -/
structure WalkResult where
  frames : Nat
  ending : WalkEnd
  last : State
  deriving DecidableEq, Repr

/-- The walk from the cursor (R181): `decodeFrame` again and again, each `OFF` after the first the previous `NEXT`. It issues every
operation of its own, so an operation already issued in its first state is no part of it (log 18). -/
def walk : Nat → State → WalkResult
  | 0, s => ⟨0, .unfinished, s⟩
  | fuel + 1, s =>
    match step (s.issue 1#2) with
    | .fault _ => ⟨0, .stopped, s⟩
    | .refused _ => ⟨0, .stopped, s⟩
    | .next t =>
      match t.status with
      | .none => ⟨0, .stopped, t⟩
      | .illegalAddressControl => ⟨0, .decodeError, t⟩
      | .truncatedFrame => ⟨0, .decodeError, t⟩
      | .probeOutOfRange => ⟨0, if s.operands.off < s.operands.bufLen then .residue else .nothingLeft, t⟩
      | .sliceOutOfRange => ⟨0, if s.operands.off < s.operands.bufLen then .residue else .nothingLeft, t⟩
      | .ok =>
        match t.results.next with
        | none => ⟨0, .stopped, t⟩
        | some n =>
          if n = s.operands.bufLen then ⟨1, .clean, t⟩
          else
            let r := walk fuel (t.withOffset n)
            ⟨r.frames + 1, r.ending, r.last⟩

end Sys2Proof.Machine
end

