-- ==== Sys2Proof/Certificates/Slice0/Obligations.lean ====
section
/-! DEFINITION. The statements for the provers: what each instruction and the machine do, from the numbered rules of spec/. -/

open Sys2Proof Sys2Proof.Machine

/-! ### Encoding and decoding -/

/-- Every well-formed instruction, frame or operation code, decodes from its own encoding: no operand byte is dropped
(spec/30_encoding.md R58, R66, R67). -/
def Obligations.EncodedInstructionDecodesToItself : Prop :=
  ∀ i : Instr, i.wellFormed = true → decode (encode i) = i

/-- The map of discriminants is total and loses nothing: every probe and every operation code decodes to a well-formed
instruction whose encoding it is (R58: "The map is total: every pair falls in exactly one row"). -/
def Obligations.EveryCodeDecodesAndEncodesBack : Prop :=
  ∀ c : Code, (decode c).wellFormed = true ∧ encode (decode c) = c

/-- The rows of the opcode table, by mask, match and priority on the 48-bit probe word, select what the dispatcher's
comparisons of bytes 3 and 5 select (R66, R102 to R104). -/
def Obligations.OpcodeTableRowsAgreeWithDispatcher : Prop :=
  ∀ p : Probe, tableSelect (packProbe p) = some (select p) ∧ unpackProbe (packProbe p) = p

/-- The discriminant map (R58), row by row: which bytes 3 and 5 select which variant. -/
def Obligations.DiscriminantBytesSelectTheVariant : Prop :=
  ∀ p : Probe,
    (select p = .variant .shortBroadcast ↔ p.p3 = 0x04#8) ∧
    (select p = .variant .directed ↔ p.p3 = 0x20#8) ∧
    (select p = .variant .shortDirected ↔ p.p3 = 0x05#8) ∧
    (select p = .variant .beacon ↔ p.p3 = 0x22#8 ∧ p.p5 = 0x40#8) ∧
    (select p = .variant .broadcast ↔ p.p3 = 0x22#8 ∧ p.p5 = 0x41#8) ∧
    (select p = .illegalAddressControl ↔ p.p3 = 0x22#8 ∧ p.p5 ≠ 0x40#8 ∧ p.p5 ≠ 0x41#8) ∧
    (select p = .variant .unknown ↔ p.p3 ≠ 0x04#8 ∧ p.p3 ≠ 0x05#8 ∧ p.p3 ≠ 0x20#8 ∧ p.p3 ≠ 0x22#8)

/-- One word of every row of the opcode table, written out from the layouts of R52 to R57 and the codes of R67, decodes to the
instruction it stands for. The frame words are probes of the vectors of spec/95_test_vectors.md section 3. -/
def Obligations.SampleTableWordsDecode : Prop :=
  decodeTableWord 48 0x0E1007040011 = some (.shortBroadcast 0x0E#8 0x10#8 0x07#8 0x00#8 0x11#8) ∧
  decodeTableWord 48 0x0E1208058899 = some (.shortDirected 0x0E#8 0x12#8 0x08#8 0x88#8 0x99#8) ∧
  decodeTableWord 48 0x1918A5200300 = some (.directed 0x19#8 0x18#8 0xA5#8 0x03#8 0x00#8) ∧
  decodeTableWord 48 0x1014A5220140 = some (.beacon 0x10#8 0x14#8 0xA5#8 0x01#8) ∧
  decodeTableWord 48 0x1816A5220241 = some (.broadcast 0x18#8 0x16#8 0xA5#8 0x02#8) ∧
  decodeTableWord 48 0x1014A5220199 = some (.illegalAddressControl 0x10#8 0x14#8 0xA5#8 0x01#8 0x99#8) ∧
  decodeTableWord 48 0x0820AA7FBBCC = some (.unknown 0x08#8 0x20#8 0xAA#8 0x7F#8 0xBB#8 0xCC#8) ∧
  decodeTableWord 8 0 = some .calculateCrc16 ∧ decodeTableWord 8 1 = some .decodeFrame ∧
  decodeTableWord 8 2 = some .selfCheck ∧ decodeTableWord 8 3 = some .unassigned

/-! ### The step -/

/-- A step runs exactly the operation the host issued; with none issued the engine is idle and nothing changes. The idle step
and the register that holds the issued operation are the model's (DESIGN CHOICE, log 1). -/
def Obligations.StepRunsTheIssuedOperation : Prop :=
  ∀ s : State,
    (s.op = none → step s = .next s) ∧
    ∀ code : BitVec 2, s.op = some code → step s = exec (decodeOp code) s

/-- When `decodeFrame` is issued and the six bytes at the cursor decode to a frame instruction, the step is that instruction. -/
def Obligations.StepRunsTheFrameAtTheCursor : Prop :=
  ∀ (s : State) (bytes : List Byte) (i : Instr),
    s.op = some 1#2 → memBytes s s.operands.off 6 = some bytes → decodeBytes bytes = .ok (i, []) →
      i.wellFormed = true ∧ step s = exec i s

/-- The operation codes, and the refusal of the unassigned one, which a step answers too (R67). -/
def Obligations.OperationCodesSelectTheOperations : Prop :=
  decodeOp 0#2 = .calculateCrc16 ∧ decodeOp 1#2 = .decodeFrame ∧ decodeOp 2#2 = .selfCheck ∧
  decodeOp 3#2 = .unassigned ∧
  (∀ s : State, exec .unassigned s = .refused .operationNotAssigned) ∧
  ∀ s : State, s.op = some 3#2 → step s = .refused .operationNotAssigned

/-! ### The Checksum Engine -/

/-- `crc_step` is the five steps of R80 as the source writes them, on naturals with the masks written out, with R80's corner
cases and worked example. -/
def Obligations.CrcStepIsTheFiveMaskedSteps : Prop :=
  (∀ (c : Word16) (b : Byte),
    (crcStep c b).toNat =
      let c1 := (((c.toNat >>> 8) &&& 0xFF) ||| (c.toNat <<< 8)) &&& 0xFFFF
      let c2 := c1 ^^^ b.toNat
      let c3 := c2 ^^^ ((c2 &&& 0xFF) >>> 4)
      let c4 := c3 ^^^ ((c3 <<< 12) &&& 0xFFFF)
      c4 ^^^ (((c4 &&& 0xFF) <<< 5) &&& 0xFFFF)) ∧
  crcStep 0x0000#16 0x00#8 = 0x0000#16 ∧ crcStep 0x0000#16 0x01#8 = 0x1021#16 ∧
  crcStep 0xFFFF#16 0xFF#8 = 0xFF00#16 ∧ crcStep 0xFFFF#16 0x00#8 = 0xE1F0#16 ∧
  crcStep 0xFFFF#16 0x31#8 = 0xC782#16

/-- `crc_step` as a network of exclusive-ors, all sixteen result bits, and its linearity (R81). -/
def Obligations.CrcStepIsTheXorNetwork : Prop :=
  (∀ (c : Word16) (b : Byte),
    let x := fun i : Nat => xor (c.getLsbD (8 + i)) (b.getLsbD i)
    let y := fun i : Nat => if i < 4 then xor (x i) (x (i + 4)) else x i
    let r := crcStep c b
    r.getLsbD 15 = xor (c.getLsbD 7) (y 3) ∧ r.getLsbD 14 = xor (c.getLsbD 6) (y 2) ∧
    r.getLsbD 13 = xor (c.getLsbD 5) (y 1) ∧ r.getLsbD 12 = xor (xor (c.getLsbD 4) (y 0)) (y 7) ∧
    r.getLsbD 11 = xor (c.getLsbD 3) (y 6) ∧ r.getLsbD 10 = xor (c.getLsbD 2) (y 5) ∧
    r.getLsbD 9 = xor (c.getLsbD 1) (y 4) ∧ r.getLsbD 8 = xor (c.getLsbD 0) (y 3) ∧
    r.getLsbD 7 = xor (y 7) (y 2) ∧ r.getLsbD 6 = xor (y 6) (y 1) ∧
    r.getLsbD 5 = xor (y 5) (y 0) ∧ r.getLsbD 4 = y 4 ∧
    r.getLsbD 3 = y 3 ∧ r.getLsbD 2 = y 2 ∧ r.getLsbD 1 = y 1 ∧ r.getLsbD 0 = y 0) ∧
  ∀ (c c' : Word16) (b b' : Byte), crcStep (c ^^^ c') (b ^^^ b') = crcStep c b ^^^ crcStep c' b'

/-- `crc_step` is eight rounds of the most-significant-bit-first division by the polynomial 0x1021 after the byte is
exclusive-ored into the high byte (R88). -/
def Obligations.CrcStepIsPolynomialDivision : Prop :=
  ∀ (c : Word16) (b : Byte),
    crcStep c b =
      (fun r : Word16 => if r.getLsbD 15 then (r <<< 1) ^^^ 0x1021#16 else r <<< 1)^[8]
        (c ^^^ (b.setWidth 16 <<< 8))

/-- Laws 1 and 2 of R86: for each byte a bijection of the accumulators, for each accumulator injective in the byte. -/
def Obligations.CrcStepIsInvertible : Prop :=
  (∀ b : Byte, Function.Bijective fun c : Word16 => crcStep c b) ∧
  ∀ c : Word16, Function.Injective fun b : Byte => crcStep c b

/-- Law 3 of R86: two sequences that differ in exactly one position have different checksums under the same seed. -/
def Obligations.CrcDetectsOneChangedByte : Prop :=
  ∀ (before after : List Byte) (b b' : Byte) (seed : Word16), b ≠ b' →
    crc16 (before ++ b :: after) seed ≠ crc16 (before ++ b' :: after) seed

/-- Law 4 of R86: a sequence followed by its own checksum, high byte first, has checksum zero. -/
def Obligations.CrcResidueIsZero : Prop :=
  ∀ (data : List Byte) (seed : Word16),
    crc16 (data ++ [(crc16 data seed >>> 8).setWidth 8, (crc16 data seed).setWidth 8]) seed = 0#16

/-- Law 5 of R86: the seed enters by exclusive-or, and zeros keep a zero seed at zero. -/
def Obligations.CrcSeedEntersByXor : Prop :=
  (∀ (data : List Byte) (s s' : Word16),
    crc16 data s ^^^ crc16 data s' = crc16 data (s ^^^ s') ^^^ crc16 data 0#16) ∧
  ∀ n : Nat, crc16 (List.replicate n 0#8) 0#16 = 0#16

/-- The recursion of R82 and the chaining of R84: a checksum can be computed in pieces, the first result seeding the second. -/
def Obligations.CrcIsComputedInPieces : Prop :=
  (∀ seed : Word16, crc16 [] seed = seed) ∧
  (∀ (data : List Byte) (b : Byte) (seed : Word16), crc16 (data ++ [b]) seed = crcStep (crc16 data seed) b) ∧
  ∀ (d1 d2 : List Byte) (seed : Word16), crc16 (d1 ++ d2) seed = crc16 d2 (crc16 d1 seed)

/-- `calculateCrc16`, whole (R82, R85, R21): it always completes, writes `CRCOUT` and `STATUS`, leaves no `decodeFrame` result, and
changes no operand. That `SELFOK` keeps its value is the model's reading of R21 (DEDUCED, log 5). -/
def Obligations.CalculateCrc16WritesTheChecksum : Prop :=
  ∀ s : State,
    exec .calculateCrc16 s = .next
      { s with op := none, working := Working.empty, status := .ok, results := Results.empty,
               crcOut := some (crc16 s.operands.data s.operands.seed) }

/-- `selfCheck`, whole (R87): the check value of "123456789" is 0x29B1, so `SELFOK` is 1 in every run. That `CRCOUT` keeps its
value is the model's reading of R21 (DEDUCED, log 5), and that `SEED` and `DATA` do is DEDUCED, log 20. -/
def Obligations.SelfCheckAlwaysSucceeds : Prop :=
  crc16 [0x31#8, 0x32#8, 0x33#8, 0x34#8, 0x35#8, 0x36#8, 0x37#8, 0x38#8, 0x39#8] 0xFFFF#16 = 0x29B1#16 ∧
  ∀ s : State,
    exec .selfCheck s = .next
      { s with op := none, working := Working.empty, status := .ok, results := Results.empty,
               selfOk := some true }

/-! ### The registry and the reads -/

/-- The minimum sizes of R59: each is the sum of its layout's widths and one more than the largest offset a field of it
touches, none is below 2. -/
def Obligations.MinimumSizesAreTheSumsOfTheWidths : Prop :=
  (minSize .shortBroadcast = 12 ∧ minSize .shortDirected = 12 ∧ minSize .directed = 23 ∧ minSize .beacon = 14 ∧
    minSize .broadcast = 22 ∧ minSize .unknown = 2) ∧
  ∀ v : Variant,
    minSize v = ((config.layout v).map FieldSpec.width).sum ∧
    (∀ f ∈ config.layout v, f.offset + f.width ≤ minSize v) ∧
    (∃ f ∈ config.layout v, f.offset + f.width = minSize v) ∧ 2 ≤ minSize v

/-- `MemBytes` (R33): it has a value exactly when the range lies inside the buffer, and then byte `i` is `BUF[addr + i]`. -/
def Obligations.MemBytesReadsExactlyTheRange : Prop :=
  ∀ (s : State) (addr n : Nat) (bytes : List Byte),
    memBytes s addr n = some bytes ↔
      addr + n ≤ s.operands.bufLen ∧ bytes.length = n ∧ ∀ i : Nat, i < n → bytes[i]? = s.readByte (addr + i)

/-- Field assembly (R60, R32): an eight-byte and a two-byte value are their bytes, the one at the lowest address first. -/
def Obligations.FieldsAreBigEndian : Prop :=
  ∀ (m : Memory) (a : Nat),
    BitVec.ofNat 64 (be (Memory.readMany m a 8)) =
      Memory.read m a ++ Memory.read m (a + 1) ++ Memory.read m (a + 2) ++ Memory.read m (a + 3) ++
        Memory.read m (a + 4) ++ Memory.read m (a + 5) ++ Memory.read m (a + 6) ++ Memory.read m (a + 7) ∧
    BitVec.ofNat 16 (be (Memory.readMany m a 2)) = Memory.read m a ++ Memory.read m (a + 1) ∧
    BitVec.ofNat 8 (be (Memory.readMany m a 1)) = Memory.read m a

/-! ### The frame instructions -/

/-- `ShortBroadcast` (R121): a frame whose declared length reaches its minimum and fits the buffer decodes; its fields are read
at their offsets in the buffer, every other `F_*` register holds nothing, and the rest of the state is `decodedState`. -/
def Obligations.ShortBroadcastDecodesItsLayout : Prop :=
  ∀ (length eirp msgId uid0 uid1 : Byte) (s : State),
    12 ≤ length.toNat → s.operands.off + length.toNat ≤ s.operands.bufLen →
      exec (.shortBroadcast length eirp msgId uid0 uid1) s = .next (decodedState s .shortBroadcast length
        { Results.empty with
          fLength := some (byteAtCursor s 0), fEirp := some (byteAtCursor s 1), fMsgId := some (byteAtCursor s 2),
          fFrameControl := some (byteAtCursor s 3), fSrcUid := some (uidAtCursor s 4) })

/-- `ShortDirected` (R123): the eight bytes at offset 4 are the destination UID. -/
def Obligations.ShortDirectedDecodesItsLayout : Prop :=
  ∀ (length eirp msgId uid0 uid1 : Byte) (s : State),
    12 ≤ length.toNat → s.operands.off + length.toNat ≤ s.operands.bufLen →
      exec (.shortDirected length eirp msgId uid0 uid1) s = .next (decodedState s .shortDirected length
        { Results.empty with
          fLength := some (byteAtCursor s 0), fEirp := some (byteAtCursor s 1), fMsgId := some (byteAtCursor s 2),
          fFrameControl := some (byteAtCursor s 3), fDstUid := some (uidAtCursor s 4) })

/-- `Directed` (R122): both UIDs and a one-byte open tag; the address-control byte may hold anything. -/
def Obligations.DirectedDecodesItsLayout : Prop :=
  ∀ (length eirp subnet msgId addrControl : Byte) (s : State),
    23 ≤ length.toNat → s.operands.off + length.toNat ≤ s.operands.bufLen →
      exec (.directed length eirp subnet msgId addrControl) s = .next (decodedState s .directed length
        { Results.empty with
          fLength := some (byteAtCursor s 0), fEirp := some (byteAtCursor s 1), fSubnet := some (byteAtCursor s 2),
          fFrameControl := some (byteAtCursor s 3), fMsgId := some (byteAtCursor s 4),
          fAddrControl := some (byteAtCursor s 5), fSrcUid := some (uidAtCursor s 6),
          fDstUid := some (uidAtCursor s 14), fOpenTag1 := some (byteAtCursor s 22) })

/-- `Beacon` (R124): the record has no `length` member. -/
def Obligations.BeaconDecodesItsLayout : Prop :=
  ∀ (length eirp subnet msgId : Byte) (s : State),
    14 ≤ length.toNat → s.operands.off + length.toNat ≤ s.operands.bufLen →
      exec (.beacon length eirp subnet msgId) s = .next (decodedState s .beacon length
        { Results.empty with
          fEirp := some (byteAtCursor s 1), fSubnet := some (byteAtCursor s 2),
          fFrameControl := some (byteAtCursor s 3), fMsgId := some (byteAtCursor s 4),
          fAddrControl := some (byteAtCursor s 5), fSrcUid := some (uidAtCursor s 6) })

/-- `Broadcast` (R125): as `Beacon`, and eight open-tag bytes in wire order. -/
def Obligations.BroadcastDecodesItsLayout : Prop :=
  ∀ (length eirp subnet msgId : Byte) (s : State),
    22 ≤ length.toNat → s.operands.off + length.toNat ≤ s.operands.bufLen →
      exec (.broadcast length eirp subnet msgId) s = .next (decodedState s .broadcast length
        { Results.empty with
          fEirp := some (byteAtCursor s 1), fSubnet := some (byteAtCursor s 2),
          fFrameControl := some (byteAtCursor s 3), fMsgId := some (byteAtCursor s 4),
          fAddrControl := some (byteAtCursor s 5), fSrcUid := some (uidAtCursor s 6),
          fOpenTag8 := some [byteAtCursor s 14, byteAtCursor s 15, byteAtCursor s 16, byteAtCursor s 17,
            byteAtCursor s 18, byteAtCursor s 19, byteAtCursor s 20, byteAtCursor s 21] })

/-- `Unknown` (R126): length and eirp only; the probe still needs six bytes in the buffer. That steps 3 to 5 apply to it is the
spec's own decision D10 (log 8). -/
def Obligations.UnknownDecodesLengthAndEirp : Prop :=
  ∀ (length eirp byte2 frameControl byte4 byte5 : Byte) (s : State),
    2 ≤ length.toNat → s.operands.off + 6 ≤ s.operands.bufLen →
    s.operands.off + length.toNat ≤ s.operands.bufLen →
      exec (.unknown length eirp byte2 frameControl byte4 byte5) s = .next (decodedState s .unknown length
        { Results.empty with fLength := some (byteAtCursor s 0), fEirp := some (byteAtCursor s 1) })

/-- The illegal address-control row (R141): its own effect is the decode error with the offending byte as payload, whatever the
length byte says; nothing else of the frame is reported and the operands stay. -/
def Obligations.IllegalAddressControlReportsTheByte : Prop :=
  ∀ (length eirp subnet msgId addrControl : Byte) (s : State),
    s.operands.off + 6 ≤ s.operands.bufLen →
      exec (.illegalAddressControl length eirp subnet msgId addrControl) s =
        .next (errorState s .illegalAddressControl (some addrControl) none)

/-- What a frame instruction raises instead of decoding, for every frame row: the probe's bounds first (R144), then the length
check (R105, R142), then the slice's bounds (R145). That the two bounds faults answer a next state is DEDUCED (log 6), and the
length check of an `Unknown` frame is the spec's decision D10 (log 8). -/
def Obligations.FrameInstructionsRaiseInOrder : Prop :=
  ∀ (p : Probe) (s : State),
    (s.operands.bufLen < s.operands.off + 6 →
      exec (decodeProbe p) s = .next (errorState s .probeOutOfRange none none)) ∧
    ∀ v : Variant, select p = .variant v → s.operands.off + 6 ≤ s.operands.bufLen →
      (p.p0.toNat < minSize v →
        exec (decodeProbe p) s =
          .next (errorState s .truncatedFrame (some p.p0) (some (BitVec.ofNat 8 (minSize v))))) ∧
      (minSize v ≤ p.p0.toNat → s.operands.bufLen < s.operands.off + p.p0.toNat →
        exec (decodeProbe p) s = .next (errorState s .sliceOutOfRange (some p.p0) none))

/-! ### The dispatcher -/

/-- `decodeFrame`, whole, in the order of R113: the probe's bounds, the selection, the length check, the slice's bounds, and for a
frame that passes them the message, its fields read straight from the buffer by the registry's table (R71). -/
def Obligations.DecodeFrameFollowsTheWholeRule : Prop :=
  ∀ s : State,
    (s.operands.bufLen < s.operands.off + 6 →
      exec .decodeFrame s = .next (errorState s .probeOutOfRange none none)) ∧
    (s.operands.off + 6 ≤ s.operands.bufLen →
      (select (probeAtCursor s) = .illegalAddressControl →
        exec .decodeFrame s = .next (errorState s .illegalAddressControl (some (byteAtCursor s 5)) none)) ∧
      ∀ v : Variant, select (probeAtCursor s) = .variant v →
        ((byteAtCursor s 0).toNat < minSize v →
          exec .decodeFrame s = .next
            (errorState s .truncatedFrame (some (byteAtCursor s 0)) (some (BitVec.ofNat 8 (minSize v))))) ∧
        (minSize v ≤ (byteAtCursor s 0).toNat →
          (s.operands.bufLen < s.operands.off + (byteAtCursor s 0).toNat →
            exec .decodeFrame s = .next (errorState s .sliceOutOfRange (some (byteAtCursor s 0)) none)) ∧
          (s.operands.off + (byteAtCursor s 0).toNat ≤ s.operands.bufLen →
            exec .decodeFrame s = .next (decodedState s v (byteAtCursor s 0) (registryFields s v)))))

/-- `ProbeOutOfRange` exactly when the six probe bytes do not all exist, and then no `decodeFrame` result register but `STATUS` holds a value
(R144). `CRCOUT` and `SELFOK` may still hold one (DEDUCED, log 5); that the fault answers a next state is DEDUCED (log 6). -/
def Obligations.ProbeOutOfRangeExactlyWhenBytesMissing : Prop :=
  ∀ (s t : State), exec .decodeFrame s = .next t →
    (t.status = .probeOutOfRange ↔ s.operands.bufLen < s.operands.off + 6) ∧
    (t.status = .probeOutOfRange → t.results = Results.empty)

/-- `IllegalAddressControl` exactly for frame-control 0x22 with an address-control byte that is neither 0x40 nor 0x41, with that
byte as its payload, nothing else reported, and every operand left as it was (R141). -/
def Obligations.IllegalAddressControlOnlyInItsFamily : Prop :=
  ∀ (s t : State), s.operands.off + 6 ≤ s.operands.bufLen → exec .decodeFrame s = .next t →
    (t.status = .illegalAddressControl ↔
      byteAtCursor s 3 = 0x22#8 ∧ byteAtCursor s 5 ≠ 0x40#8 ∧ byteAtCursor s 5 ≠ 0x41#8) ∧
    (t.status = .illegalAddressControl →
      t.results = { Results.empty with err0 := some (byteAtCursor s 5) } ∧ t.operands = s.operands)

/-- `TruncatedFrame` exactly when the declared length is below the minimum of the selected variant, however long the buffer is,
with both numbers as its payload (R105, R142). -/
def Obligations.TruncatedFrameExactlyWhenTooShort : Prop :=
  ∀ (s t : State), s.operands.off + 6 ≤ s.operands.bufLen → exec .decodeFrame s = .next t →
    (t.status = .truncatedFrame ↔
      ∃ v : Variant, select (probeAtCursor s) = .variant v ∧ (byteAtCursor s 0).toNat < minSize v) ∧
    (t.status = .truncatedFrame →
      t.operands = s.operands ∧
        ∃ v : Variant, select (probeAtCursor s) = .variant v ∧
          t.results = { Results.empty with err0 := some (byteAtCursor s 0), err1 := t.results.err1 } ∧
          t.results.err1.map BitVec.toNat = some (minSize v))

/-- `SliceOutOfRange` exactly when the probe is readable, a variant is selected and its length check passes, but the declared
length runs past the end of the buffer; then `ERR0` is the declared length and no other `decodeFrame` result register but
`STATUS` holds a value (R145). `CRCOUT` and `SELFOK` may still hold one (DEDUCED, log 5); that the fault answers a next
state is DEDUCED (log 6). -/
def Obligations.SliceOutOfRangeExactlyWhenItRunsPast : Prop :=
  ∀ (s t : State), exec .decodeFrame s = .next t →
    (t.status = .sliceOutOfRange ↔
      s.operands.off + 6 ≤ s.operands.bufLen ∧
        (∃ v : Variant, select (probeAtCursor s) = .variant v ∧ minSize v ≤ (byteAtCursor s 0).toNat) ∧
        s.operands.bufLen < s.operands.off + (byteAtCursor s 0).toNat) ∧
    (t.status = .sliceOutOfRange → t.results = { Results.empty with err0 := some (byteAtCursor s 0) })

/-- An error or fault leaves `STATUS`, its payload and no message at all, changes no operand, and leaves the engine ready for the
next operation (R148, R149); `CRCOUT` and `SELFOK` keep their value (DEDUCED, log 5). -/
def Obligations.ErrorsLeaveOnlyStatusAndPayload : Prop :=
  ∀ (s t : State), exec .decodeFrame s = .next t → t.status ≠ .ok →
    t = errorState s t.status t.results.err0 t.results.err1

/-- After an error or fault, reading any register of the message is a fault of the model, never a zero and never the value of an
earlier operation (R21). -/
def Obligations.MessageIsUnreadableAfterAnError : Prop :=
  ∀ (s t : State) (reg : ResultReg), exec .decodeFrame s = .next t → t.status ≠ .ok →
    reg ≠ .status → reg ≠ .err0 → reg ≠ .err1 → reg ≠ .crcOut → reg ≠ .selfOk →
      readResult reg t = .fault (.noValue reg)

/-- Progress (R114): a successful `decodeFrame` moves the cursor forward by at least 2 and never past the end of the buffer. -/
def Obligations.SuccessfulDecodeMovesTheCursorForward : Prop :=
  ∀ (s t : State), exec .decodeFrame s = .next t → t.status = .ok →
    ∃ n : Nat, t.results.next = some n ∧ s.operands.off + 2 ≤ n ∧ n ≤ s.operands.bufLen ∧
      n = s.operands.off + (byteAtCursor s 0).toNat

/-- `TBITS` (R109): eight bits a declared byte and the overhead, with no overflow. The overhead is the preamble, sync and length field
bits and the configured `CHECKSUM_FIELD_BITS` (R5), 88 in all by the spec's decision D7 (log 7). -/
def Obligations.TotalBitLengthCountsBytesAndOverhead : Prop :=
  ∀ (s t : State), exec .decodeFrame s = .next t → t.status = .ok →
    ∃ bits : Word32, t.results.tBits = some bits ∧ bits.toNat = 8 * (byteAtCursor s 0).toNat + 88 ∧
      bits.toNat = 8 * (byteAtCursor s 0).toNat +
        (preambleBits + syncBits + lengthFieldBits + config.checksumFieldBits) ∧
      104 ≤ bits.toNat ∧ bits.toNat ≤ 2128

/-- Overlap at the minimum length (R116): there the embedded checksum is the tail of the last field. -/
def Obligations.MinimumFrameChecksumOverlapsItsLastField : Prop :=
  ∀ (s t : State) (v : Variant), exec .decodeFrame s = .next t → t.status = .ok → t.results.variant = some v →
    (byteAtCursor s 0).toNat = minSize v →
      (v = .shortBroadcast ∨ v = .beacon → t.results.eCrc = t.results.fSrcUid.map (·.setWidth 16)) ∧
      (v = .shortDirected → t.results.eCrc = t.results.fDstUid.map (·.setWidth 16)) ∧
      (v = .directed → t.results.eCrc = some (byteAtCursor s 21 ++ byteAtCursor s 22) ∧
        t.results.fOpenTag1 = some (byteAtCursor s 22)) ∧
      (v = .broadcast → t.results.eCrc = some (byteAtCursor s 20 ++ byteAtCursor s 21)) ∧
      (v = .unknown → t.results.eCrc = some (byteAtCursor s 0 ++ byteAtCursor s 1) ∧
        t.results.cCrc = some 0xFFFF#16)

/-! ### What no operation does -/

/-- The engine writes no operand: neither the buffer, read byte by byte, nor `BUFLEN` (R34), nor the cursor (R13), nor `DATA` and
`SEED`; the last two are the model's reading of R18 and R24 (DEDUCED, log 20). -/
def Obligations.NoInstructionWritesAnOperand : Prop :=
  ∀ (i : Instr) (s t : State), exec i s = .next t →
    t.operands = s.operands ∧ ∀ a : Nat, t.readByte a = s.readByte a

/-- Every assigned operation and every frame runs to an outcome and leaves the engine idle with no working register in use
(R140, R148, R149). That a bounds fault answers a next state is DEDUCED from R148 and R149 against a sentence of R140 (log 6), and
that an `Unknown` frame runs at all is the spec's decision D10 (log 8). -/
def Obligations.EveryAssignedInstructionRunsToAnOutcome : Prop :=
  ∀ (i : Instr) (s : State), i ≠ .unassigned →
    ∃ t : State, exec i s = .next t ∧ t.status ≠ .none ∧ t.op = none ∧ t.working = Working.empty

/-- `CRCOUT` and `SELFOK` are written by their own operation alone and keep their value through every other one: the model's
reading of R21 (DEDUCED, log 5). -/
def Obligations.OnlyTheirOwnOperationWritesCrcOutAndSelfOk : Prop :=
  ∀ (i : Instr) (s t : State), exec i s = .next t →
    (i ≠ .calculateCrc16 → t.crcOut = s.crcOut) ∧ (i ≠ .selfCheck → t.selfOk = s.selfOk)

/-- Nothing survives from earlier operations (R22): whatever the result registers held, `STATUS` and the `decodeFrame` results of
an operation are a function of `BUF`, `BUFLEN` and `OFF` alone, `CRCOUT` of `calculateCrc16` a function of `DATA` and `SEED`
alone, and `SELFOK` of `selfCheck` of nothing. -/
def Obligations.ResultsDependOnTheOperandsAlone : Prop :=
  ∀ (i : Instr) (s s' t t' : State), exec i s = .next t → exec i s' = .next t' →
    (s.operands.buf = s'.operands.buf → s.operands.bufLen = s'.operands.bufLen →
      s.operands.off = s'.operands.off → t.status = t'.status ∧ t.results = t'.results) ∧
    (i = .calculateCrc16 → s.operands.data = s'.operands.data → s.operands.seed = s'.operands.seed →
      t.crcOut = t'.crcOut) ∧
    (i = .selfCheck → t.selfOk = t'.selfOk) ∧ t.op = t'.op ∧ t.working = t'.working

/-- Which bytes `decodeFrame` depends on (R37, R45): the probe, and after a success the declared slice. Two buffers that agree on
those give the same outcome and results, whatever they hold elsewhere; after an error the probe alone decides. -/
def Obligations.DecodeFrameDependsOnlyOnProbeAndSlice : Prop :=
  ∀ (s s' t t' : State),
    s.operands.off = s'.operands.off → s.operands.bufLen = s'.operands.bufLen →
    (∀ k : Nat, k < 6 → byteAtCursor s k = byteAtCursor s' k) →
    exec .decodeFrame s = .next t → exec .decodeFrame s' = .next t' →
    (t.status = .ok → ∀ k : Nat, k < (byteAtCursor s 0).toNat → byteAtCursor s k = byteAtCursor s' k) →
      t.status = t'.status ∧ t.results = t'.results

/-- Sequential decode (R118): the same frame bytes at another cursor, in another buffer, give the same outcome and the same
message but for `RAWBASE` and `NEXT`, which move with the cursor. -/
def Obligations.MessageDependsOnCursorOnlyThroughBaseAndNext : Prop :=
  ∀ (s s' t t' : State),
    (∀ k : Nat, k < max 6 (byteAtCursor s 0).toNat → byteAtCursor s k = byteAtCursor s' k) →
    s.operands.off + max 6 (byteAtCursor s 0).toNat ≤ s.operands.bufLen →
    s'.operands.off + max 6 (byteAtCursor s 0).toNat ≤ s'.operands.bufLen →
    exec .decodeFrame s = .next t → exec .decodeFrame s' = .next t' →
      t.status = t'.status ∧
      { t.results with rawBase := none, next := none } = { t'.results with rawBase := none, next := none } ∧
      (t.status = .ok →
        t.results.rawBase = some s.operands.off ∧ t'.results.rawBase = some s'.operands.off ∧
        t.results.next = some (s.operands.off + (byteAtCursor s 0).toNat) ∧
        t'.results.next = some (s'.operands.off + (byteAtCursor s 0).toNat))

/-! ### What the host sees -/

/-- The checksum round trip (R177, with law 4 of R86): after a successful decode the host's comparison of the two checksums holds
exactly when the checksum of the whole frame is zero. -/
def Obligations.ChecksumsAgreeExactlyWhenResidueIsZero : Prop :=
  ∀ (s t : State), exec .decodeFrame s = .next t → t.status = .ok →
    (t.ChecksumsAgree ↔ crc16 (rawAtCursor s (byteAtCursor s 0).toNat) 0xFFFF#16 = 0#16)

/-- One altered byte before the trailing checksum, with both decodes successful and of one length, leaves the embedded checksum
and changes the recomputed one, so at most one of the two frames has agreeing checksums (R177, law 3 of R86). -/
def Obligations.OneAlteredByteBreaksTheChecksum : Prop :=
  ∀ (s s' t t' : State) (k : Nat),
    s.operands.off = s'.operands.off → byteAtCursor s 0 = byteAtCursor s' 0 →
    k + 2 < (byteAtCursor s 0).toNat → byteAtCursor s k ≠ byteAtCursor s' k →
    (∀ j : Nat, j < (byteAtCursor s 0).toNat → j ≠ k → byteAtCursor s j = byteAtCursor s' j) →
    exec .decodeFrame s = .next t → exec .decodeFrame s' = .next t' → t.status = .ok → t'.status = .ok →
      t.results.eCrc = t'.results.eCrc ∧ t.results.cCrc ≠ t'.results.cCrc ∧
        ¬ (t.ChecksumsAgree ∧ t'.ChecksumsAgree)

/-- A load between operations puts the host's bytes in the buffer, nothing past them exists (R12, R30, R171), and nothing but `BUF`
and `BUFLEN` changes. That the results of earlier operations stay is read from R174 (DEDUCED, log 23). -/
def Obligations.LoadedBytesAreRead : Prop :=
  ∀ (bytes : List Byte) (s : State), s.op = none →
    ∃ t : State, hostLoad bytes s = .next t ∧ t.operands.bufLen = bytes.length ∧
      (∀ a : Nat, t.readByte a = bytes[a]?) ∧
      t = { s with operands := { s.operands with buf := t.operands.buf, bufLen := t.operands.bufLen } }

/-- A byte the host rewrites between operations is the byte the next read sees, and no other byte and nothing else changes (R43; log
23). That an address that does not exist (R30) is a fault at the host's port is the model's (DESIGN CHOICE, log 17). -/
def Obligations.RewrittenByteIsSeenAndNoOther : Prop :=
  ∀ (s : State) (a : Nat) (b : Byte), s.op = none → Memory.wf s.operands.buf = true →
    (a < s.operands.bufLen → ∃ t : State, hostStore a b s = .next t ∧
      (∀ c : Nat, t.readByte c = if c = a then some b else s.readByte c) ∧
      t = { s with operands := { s.operands with buf := t.operands.buf } }) ∧
    (s.operands.bufLen ≤ a → hostStore a b s = .fault (.noSuchAddress a))

/-- The host acts between operations only. With none issued, setting the cursor (R13) or the checksum operands (R24), issuing an
operation (R67) and copying `NEXT` (R13) have their effect and no other. The register an issue writes is the model's (DESIGN
CHOICE, log 1), and that the results of earlier operations stay is DEDUCED (log 23). From the issue of an operation to its end every act of the host is refused: for the buffer the
spec gives such a run no meaning (R40, R173, U4), for the other acts the refusal is the model's (DESIGN CHOICE, log 24). The
fault on a copy of a `NEXT` without a value is R21's: "Reading a register that holds no value is a fault of the model". -/
def Obligations.HostActsLandOnlyBetweenOperations : Prop :=
  ∀ s : State,
    (s.op = none →
      (∀ off : Nat, hostSetOffset off s = .next { s with operands := { s.operands with off := off } }) ∧
      (∀ (data : List Byte) (seed : Word16),
        hostSetData data seed s = .next { s with operands := { s.operands with data := data, seed := seed } }) ∧
      (∀ code : BitVec 2, hostIssue code s = .next { s with op := some code }) ∧
      (∀ n : Nat, s.results.next = some n →
        hostAdvance s = .next { s with operands := { s.operands with off := n } }) ∧
      (s.results.next = none → hostAdvance s = .fault (.noValue .next))) ∧
    (s.op ≠ none →
      (∀ bytes : List Byte, hostLoad bytes s = .refused .hostActDuringOperation) ∧
      (∀ (a : Nat) (b : Byte), hostStore a b s = .refused .hostActDuringOperation) ∧
      (∀ off : Nat, hostSetOffset off s = .refused .hostActDuringOperation) ∧
      (∀ (data : List Byte) (seed : Word16), hostSetData data seed s = .refused .hostActDuringOperation) ∧
      (∀ code : BitVec 2, hostIssue code s = .refused .hostActDuringOperation) ∧
      hostAdvance s = .refused .hostActDuringOperation ∧
      ∀ reg : ResultReg, readResult reg s = .refused .hostActDuringOperation)

/-! ### Invariants and runs -/

/-- Reset (R170, R23): idle, `STATUS` is `None`, no working register and no other result register holds a value. -/
def Obligations.ResetLeavesTheEngineIdleWithoutResults : Prop :=
  State.reset.op = none ∧ State.reset.working = Working.empty ∧ readResult .status State.reset = .next (.status .none) ∧
    ∀ reg : ResultReg, reg ≠ .status → readResult reg State.reset = .fault (.noValue reg)

/-- The coherent states include the state after reset. -/
def Obligations.ResetStateIsCoherent : Prop := State.reset.Coherent

/-- Every step keeps a coherent state coherent: the buffer's canonical form, no working register in use between operations, a
self-check that never fails, and result registers that hold exactly what their `STATUS` and `VARIANT` say they hold (R11, R17,
R21, R87, R120, R148). -/
def Obligations.StepKeepsTheStateCoherent : Prop :=
  ∀ s t : State, s.Coherent → step s = .next t → t.Coherent

/-- What the host does between steps keeps a coherent state coherent. -/
def Obligations.HostActsKeepTheStateCoherent : Prop :=
  ∀ s : State, s.Coherent →
    (∀ (bytes : List Byte) (t : State), hostLoad bytes s = .next t → t.Coherent) ∧
    (∀ (off : Nat) (t : State), hostSetOffset off s = .next t → t.Coherent) ∧
    (∀ (data : List Byte) (seed : Word16) (t : State), hostSetData data seed s = .next t → t.Coherent) ∧
    (∀ (code : BitVec 2) (t : State), hostIssue code s = .next t → t.Coherent) ∧
    (∀ (a : Nat) (b : Byte) (t : State), hostStore a b s = .next t → t.Coherent) ∧
    ∀ t : State, hostAdvance s = .next t → t.Coherent

/-- Every walk ends (R182): from any cursor, with fuel for half the bytes ahead and one more operation, the walk reaches an end
of R181, never a stop, and each successful operation used at least two bytes. That no operation of a walk stops rests on the
model's next states for bounds faults (DEDUCED, log 6) and on the uniform `Unknown` frame (D10, log 8); `nothingLeft` is the
model's name (DESIGN CHOICE, log 18). -/
def Obligations.EveryWalkEnds : Prop :=
  ∀ s : State,
    let r := walk ((s.operands.bufLen - s.operands.off) / 2 + 1) s
    r.ending ≠ .unfinished ∧ r.ending ≠ .stopped ∧ 2 * r.frames ≤ s.operands.bufLen - s.operands.off ∧
      (r.ending = .nothingLeft → s.operands.bufLen ≤ s.operands.off ∧ r.frames = 0) ∧
      (r.ending = .clean → r.last.results.next = some s.operands.bufLen)
end

