-- ==== Sys2Proof/Laws/Checksum.lean ====
section
/-! SUPPORT. The recursion of the checksum (spec/40_checksum.md R82), as rewriting rules. -/

namespace Sys2Proof.Machine

@[simp] theorem crc16_nil (seed : Word16) : crc16 [] seed = seed := rfl

@[simp] theorem crc16_cons (b : Byte) (data : List Byte) (seed : Word16) :
    crc16 (b :: data) seed = crc16 data (crcStep seed b) := rfl

end Sys2Proof.Machine
end

