-- ==== Sys2Proof/Laws/Memory.lean ====
section
/-! SUPPORT. The buffer's laws: every write keeps the canonical form, and a read after a write. -/

namespace Sys2Proof.Machine

theorem Memory.wfFrom_of_le {lo lo' : Nat} (m : Memory) (h : lo' ≤ lo) (hm : Memory.wfFrom lo m = true) :
    Memory.wfFrom lo' m = true := by
  cases m with
  | nil => rfl
  | cons e m =>
    obtain ⟨a, b⟩ := e
    simp only [Memory.wfFrom, Bool.and_eq_true, decide_eq_true_eq] at hm ⊢
    exact ⟨⟨by omega, hm.1.2⟩, hm.2⟩

theorem Memory.entry_wfFrom {lo a : Nat} (b : Byte) (m : Memory) (ha : lo ≤ a)
    (hm : Memory.wfFrom (a + 1) m = true) : Memory.wfFrom lo (Memory.entry a b m) = true := by
  unfold Memory.entry
  split
  · exact Memory.wfFrom_of_le m (by omega) hm
  · simp_all [Memory.wfFrom]

theorem Memory.write_wfFrom {lo : Nat} (m : Memory) (a : Nat) (b : Byte) (ha : lo ≤ a)
    (hm : Memory.wfFrom lo m = true) : Memory.wfFrom lo (Memory.write m a b) = true := by
  induction m generalizing lo with
  | nil => exact Memory.entry_wfFrom b [] ha rfl
  | cons e m ih =>
    obtain ⟨a', b'⟩ := e
    simp only [Memory.wfFrom, Bool.and_eq_true, decide_eq_true_eq] at hm
    obtain ⟨⟨hlo, hb'⟩, hm⟩ := hm
    unfold Memory.write
    split
    · refine Memory.entry_wfFrom b _ ha ?_
      simp only [Memory.wfFrom, Bool.and_eq_true, decide_eq_true_eq]
      exact ⟨⟨by omega, hb'⟩, hm⟩
    · split
      · rename_i h
        subst h
        exact Memory.entry_wfFrom b m ha hm
      · simp only [Memory.wfFrom, Bool.and_eq_true, decide_eq_true_eq]
        exact ⟨⟨hlo, hb'⟩, ih (by omega) hm⟩

/-- A write keeps the canonical form. -/
theorem Memory.write_wf (m : Memory) (a : Nat) (b : Byte) (hm : Memory.wf m = true) :
    Memory.wf (Memory.write m a b) = true :=
  Memory.write_wfFrom m a b (Nat.zero_le a) hm

/-- Writing a sequence keeps the canonical form. -/
theorem Memory.writeBytes_wf (m : Memory) (a : Nat) (bs : List Byte) (hm : Memory.wf m = true) :
    Memory.wf (Memory.writeBytes m a bs) = true := by
  induction bs generalizing m a with
  | nil => exact hm
  | cons b bs ih => exact ih _ _ (Memory.write_wf m a b hm)

/-- The buffer after reset is in canonical form. -/
theorem Memory.reset_wf : Memory.wf State.reset.operands.buf = true := rfl

theorem Memory.read_of_wfFrom {lo : Nat} (m : Memory) (c : Nat) (hc : c < lo) (hm : Memory.wfFrom lo m = true) :
    Memory.read m c = unlistedByte := by
  induction m generalizing lo with
  | nil => rfl
  | cons e m ih =>
    obtain ⟨a', b'⟩ := e
    simp only [Memory.wfFrom, Bool.and_eq_true, decide_eq_true_eq] at hm
    rw [Memory.read, if_neg (by omega)]
    exact ih (lo := a' + 1) (by omega) hm.2

theorem Memory.read_entry {a : Nat} (b : Byte) (m : Memory) (c : Nat) (hm : Memory.wfFrom (a + 1) m = true) :
    Memory.read (Memory.entry a b m) c = if c = a then b else Memory.read m c := by
  unfold Memory.entry
  split
  · rename_i hb
    split
    · rename_i hc
      rw [hb]
      exact Memory.read_of_wfFrom m c (by omega) hm
    · rfl
  · rfl

/-- A read after a write gives the value written there, and what was there anywhere else. -/
theorem Memory.read_write (m : Memory) (a : Nat) (b : Byte) (c : Nat) (hm : Memory.wf m = true) :
    Memory.read (Memory.write m a b) c = if c = a then b else Memory.read m c := by
  unfold Memory.wf at hm
  revert hm
  generalize 0 = lo
  intro hm
  induction m generalizing lo with
  | nil => exact Memory.read_entry b [] c rfl
  | cons e m ih =>
    obtain ⟨a', b'⟩ := e
    have hm' := hm
    simp only [Memory.wfFrom, Bool.and_eq_true, decide_eq_true_eq] at hm
    unfold Memory.write
    split
    · refine Memory.read_entry b _ c ?_
      simp only [Memory.wfFrom, Bool.and_eq_true, decide_eq_true_eq]
      exact ⟨⟨by omega, hm.1.2⟩, hm.2⟩
    · split
      · rename_i h
        subst h
        rw [Memory.read_entry b m c hm.2, Memory.read]
        split <;> simp_all
      · simp only [Memory.read, ih _ hm.2]
        split <;> split <;> simp_all

@[simp] theorem Memory.readMany_length (m : Memory) (a n : Nat) : (Memory.readMany m a n).length = n := by
  induction n generalizing a with
  | zero => rfl
  | succ n ih => simp [Memory.readMany, ih]

/-- Byte `i` of a range. -/
theorem Memory.readMany_getElem? (m : Memory) (a n i : Nat) (h : i < n) :
    (Memory.readMany m a n)[i]? = some (Memory.read m (a + i)) := by
  induction n generalizing a i with
  | zero => omega
  | succ n ih =>
    cases i with
    | zero => rfl
    | succ i =>
      rw [Memory.readMany, List.getElem?_cons_succ, ih _ _ (by omega)]
      congr 2
      omega

/-- A sub-range of a range. -/
theorem Memory.slice_readMany (m : Memory) (a n i k : Nat) (h : i + k ≤ n) :
    slice (Memory.readMany m a n) i k = Memory.readMany m (a + i) k := by
  apply List.ext_getElem?
  intro j
  unfold slice
  rw [List.getElem?_take]
  by_cases hj : j < k
  · rw [if_pos hj, List.getElem?_drop, Memory.readMany_getElem? _ _ _ _ (by omega),
      Memory.readMany_getElem? _ _ _ _ hj]
    congr 2
    omega
  · rw [if_neg hj, List.getElem?_eq_none (by simpa using hj)]

end Sys2Proof.Machine
end

