-- ==== Sys2Proof/Laws/State.lean ====
section
/-! SUPPORT. What each update does to each part of the state, once. -/

namespace Sys2Proof.Machine

@[simp] theorem beginDecode_op (s : State) : (beginDecode s).op = none := rfl
@[simp] theorem beginDecode_operands (s : State) : (beginDecode s).operands = s.operands := rfl
@[simp] theorem beginDecode_working (s : State) : (beginDecode s).working = s.working := rfl
@[simp] theorem beginDecode_status (s : State) : (beginDecode s).status = .none := rfl
@[simp] theorem beginDecode_results (s : State) : (beginDecode s).results = Results.empty := rfl
@[simp] theorem beginDecode_crcOut (s : State) : (beginDecode s).crcOut = s.crcOut := rfl
@[simp] theorem beginDecode_selfOk (s : State) : (beginDecode s).selfOk = s.selfOk := rfl

@[simp] theorem beginCrc_op (s : State) : (beginCrc s).op = none := rfl
@[simp] theorem beginCrc_operands (s : State) : (beginCrc s).operands = s.operands := rfl
@[simp] theorem beginCrc_working (s : State) : (beginCrc s).working = s.working := rfl
@[simp] theorem beginCrc_status (s : State) : (beginCrc s).status = .none := rfl
@[simp] theorem beginCrc_results (s : State) : (beginCrc s).results = Results.empty := rfl
@[simp] theorem beginCrc_crcOut (s : State) : (beginCrc s).crcOut = none := rfl
@[simp] theorem beginCrc_selfOk (s : State) : (beginCrc s).selfOk = s.selfOk := rfl

@[simp] theorem beginSelfCheck_op (s : State) : (beginSelfCheck s).op = none := rfl
@[simp] theorem beginSelfCheck_operands (s : State) : (beginSelfCheck s).operands = s.operands := rfl
@[simp] theorem beginSelfCheck_working (s : State) : (beginSelfCheck s).working = s.working := rfl
@[simp] theorem beginSelfCheck_status (s : State) : (beginSelfCheck s).status = .none := rfl
@[simp] theorem beginSelfCheck_results (s : State) : (beginSelfCheck s).results = Results.empty := rfl
@[simp] theorem beginSelfCheck_crcOut (s : State) : (beginSelfCheck s).crcOut = s.crcOut := rfl
@[simp] theorem beginSelfCheck_selfOk (s : State) : (beginSelfCheck s).selfOk = none := rfl

@[simp] theorem latchProbe_op (p : Probe) (s : State) : (latchProbe p s).op = s.op := rfl
@[simp] theorem latchProbe_operands (p : Probe) (s : State) : (latchProbe p s).operands = s.operands := rfl
@[simp] theorem latchProbe_status (p : Probe) (s : State) : (latchProbe p s).status = s.status := rfl
@[simp] theorem latchProbe_results (p : Probe) (s : State) : (latchProbe p s).results = s.results := rfl
@[simp] theorem latchProbe_crcOut (p : Probe) (s : State) : (latchProbe p s).crcOut = s.crcOut := rfl
@[simp] theorem latchProbe_selfOk (p : Probe) (s : State) : (latchProbe p s).selfOk = s.selfOk := rfl

@[simp] theorem writeCrc_op (v : Word16) (s : State) : (writeCrc v s).op = s.op := rfl
@[simp] theorem writeCrc_operands (v : Word16) (s : State) : (writeCrc v s).operands = s.operands := rfl
@[simp] theorem writeCrc_working (v : Word16) (s : State) : (writeCrc v s).working = { s.working with crc := some v } := rfl
@[simp] theorem writeCrc_status (v : Word16) (s : State) : (writeCrc v s).status = s.status := rfl
@[simp] theorem writeCrc_results (v : Word16) (s : State) : (writeCrc v s).results = s.results := rfl
@[simp] theorem writeCrc_crcOut (v : Word16) (s : State) : (writeCrc v s).crcOut = s.crcOut := rfl
@[simp] theorem writeCrc_selfOk (v : Word16) (s : State) : (writeCrc v s).selfOk = s.selfOk := rfl

@[simp] theorem retire_op (s : State) : (retire s).op = s.op := rfl
@[simp] theorem retire_operands (s : State) : (retire s).operands = s.operands := rfl
@[simp] theorem retire_working (s : State) : (retire s).working = Working.empty := rfl
@[simp] theorem retire_status (s : State) : (retire s).status = s.status := rfl
@[simp] theorem retire_results (s : State) : (retire s).results = s.results := rfl
@[simp] theorem retire_crcOut (s : State) : (retire s).crcOut = s.crcOut := rfl
@[simp] theorem retire_selfOk (s : State) : (retire s).selfOk = s.selfOk := rfl

@[simp] theorem withBuffer_op (bytes : List Byte) (s : State) : (s.withBuffer bytes).op = s.op := rfl
@[simp] theorem withBuffer_working (bytes : List Byte) (s : State) : (s.withBuffer bytes).working = s.working := rfl
@[simp] theorem withBuffer_status (bytes : List Byte) (s : State) : (s.withBuffer bytes).status = s.status := rfl
@[simp] theorem withBuffer_results (bytes : List Byte) (s : State) : (s.withBuffer bytes).results = s.results := rfl
@[simp] theorem withBuffer_crcOut (bytes : List Byte) (s : State) : (s.withBuffer bytes).crcOut = s.crcOut := rfl
@[simp] theorem withBuffer_selfOk (bytes : List Byte) (s : State) : (s.withBuffer bytes).selfOk = s.selfOk := rfl
@[simp] theorem withBuffer_operands (bytes : List Byte) (s : State) :
    (s.withBuffer bytes).operands =
      { s.operands with buf := Memory.writeBytes [] 0 bytes, bufLen := bytes.length } := rfl

@[simp] theorem withByte_op (a : Nat) (b : Byte) (s : State) : (s.withByte a b).op = s.op := rfl
@[simp] theorem withByte_operands (a : Nat) (b : Byte) (s : State) :
    (s.withByte a b).operands = { s.operands with buf := Memory.write s.operands.buf a b } := rfl
@[simp] theorem withByte_working (a : Nat) (b : Byte) (s : State) : (s.withByte a b).working = s.working := rfl
@[simp] theorem withByte_status (a : Nat) (b : Byte) (s : State) : (s.withByte a b).status = s.status := rfl
@[simp] theorem withByte_results (a : Nat) (b : Byte) (s : State) : (s.withByte a b).results = s.results := rfl
@[simp] theorem withByte_crcOut (a : Nat) (b : Byte) (s : State) : (s.withByte a b).crcOut = s.crcOut := rfl
@[simp] theorem withByte_selfOk (a : Nat) (b : Byte) (s : State) : (s.withByte a b).selfOk = s.selfOk := rfl

@[simp] theorem withOffset_op (off : Nat) (s : State) : (s.withOffset off).op = s.op := rfl
@[simp] theorem withOffset_operands (off : Nat) (s : State) : (s.withOffset off).operands = { s.operands with off := off } := rfl
@[simp] theorem withOffset_working (off : Nat) (s : State) : (s.withOffset off).working = s.working := rfl
@[simp] theorem withOffset_status (off : Nat) (s : State) : (s.withOffset off).status = s.status := rfl
@[simp] theorem withOffset_results (off : Nat) (s : State) : (s.withOffset off).results = s.results := rfl
@[simp] theorem withOffset_crcOut (off : Nat) (s : State) : (s.withOffset off).crcOut = s.crcOut := rfl
@[simp] theorem withOffset_selfOk (off : Nat) (s : State) : (s.withOffset off).selfOk = s.selfOk := rfl

@[simp] theorem withChecksumOperands_op (data : List Byte) (seed : Word16) (s : State) : (s.withChecksumOperands data seed).op = s.op := rfl
@[simp] theorem withChecksumOperands_operands (data : List Byte) (seed : Word16) (s : State) : (s.withChecksumOperands data seed).operands = { s.operands with data := data, seed := seed } := rfl
@[simp] theorem withChecksumOperands_working (data : List Byte) (seed : Word16) (s : State) : (s.withChecksumOperands data seed).working = s.working := rfl
@[simp] theorem withChecksumOperands_status (data : List Byte) (seed : Word16) (s : State) : (s.withChecksumOperands data seed).status = s.status := rfl
@[simp] theorem withChecksumOperands_results (data : List Byte) (seed : Word16) (s : State) : (s.withChecksumOperands data seed).results = s.results := rfl
@[simp] theorem withChecksumOperands_crcOut (data : List Byte) (seed : Word16) (s : State) : (s.withChecksumOperands data seed).crcOut = s.crcOut := rfl
@[simp] theorem withChecksumOperands_selfOk (data : List Byte) (seed : Word16) (s : State) : (s.withChecksumOperands data seed).selfOk = s.selfOk := rfl

@[simp] theorem issue_op (code : BitVec 2) (s : State) : (s.issue code).op = some code := rfl
@[simp] theorem issue_operands (code : BitVec 2) (s : State) : (s.issue code).operands = s.operands := rfl
@[simp] theorem issue_working (code : BitVec 2) (s : State) : (s.issue code).working = s.working := rfl
@[simp] theorem issue_status (code : BitVec 2) (s : State) : (s.issue code).status = s.status := rfl
@[simp] theorem issue_results (code : BitVec 2) (s : State) : (s.issue code).results = s.results := rfl
@[simp] theorem issue_crcOut (code : BitVec 2) (s : State) : (s.issue code).crcOut = s.crcOut := rfl
@[simp] theorem issue_selfOk (code : BitVec 2) (s : State) : (s.issue code).selfOk = s.selfOk := rfl

end Sys2Proof.Machine
end

