-- ==== Sys2Proof/Laws/Ops.lean ====
section
/-! SUPPORT. What each shared operation can do, once. -/

namespace Sys2Proof.Machine

@[simp] theorem minSize_shortBroadcast : minSize .shortBroadcast = 12 := rfl
@[simp] theorem minSize_directed : minSize .directed = 23 := rfl
@[simp] theorem minSize_shortDirected : minSize .shortDirected = 12 := rfl
@[simp] theorem minSize_beacon : minSize .beacon = 14 := rfl
@[simp] theorem minSize_broadcast : minSize .broadcast = 22 := rfl
@[simp] theorem minSize_unknown : minSize .unknown = 2 := rfl

@[simp] theorem config_checksumFieldBits : config.checksumFieldBits = 16 := rfl
@[simp] theorem config_overheadBits : config.overheadBits = 88 := rfl

/-- The whole of a read: defined exactly inside the buffer. -/
theorem memBytes_eq (s : State) (addr n : Nat) :
    memBytes s addr n =
      if addr + n ≤ s.operands.bufLen then some (Memory.readMany s.operands.buf addr n) else none := rfl

theorem memBytes_some {s : State} {addr n : Nat} (h : addr + n ≤ s.operands.bufLen) :
    memBytes s addr n = some (Memory.readMany s.operands.buf addr n) := if_pos h

theorem memBytes_none {s : State} {addr n : Nat} (h : s.operands.bufLen < addr + n) : memBytes s addr n = none :=
  if_neg (by omega)

/-- The whole of the probe read. -/
theorem fetchProbe_eq (s : State) :
    fetchProbe s = if s.operands.off + 6 ≤ s.operands.bufLen then some (probeAtCursor s) else none := by
  unfold fetchProbe
  rw [memBytes_eq, show probeLen = 6 from rfl]
  by_cases h : s.operands.off + 6 ≤ s.operands.bufLen
  · rw [if_pos h, if_pos h]
    rfl
  · rw [if_neg h, if_neg h]

/-- The whole of `raise` after an operation has begun. -/
theorem raise_beginDecode (e : Raised) (s : State) :
    raise e (beginDecode s) = .next (errorState s e.status e.err0 e.err1) := rfl

theorem raise_latchProbe (e : Raised) (p : Probe) (s : State) :
    raise e (latchProbe p (beginDecode s)) = .next (errorState s e.status e.err0 e.err1) := rfl

/-- The whole of `finishOk`. -/
theorem finishOk_eq (s : State) : finishOk s = .next { s with status := .ok, working := Working.empty } := rfl

/-- The message a frame of variant `v` leaves, as the slice gives it. -/
def messageState (v : Variant) (length : Byte) (s : State) : State :=
  retire { writeMessage v length (rawAtCursor s length.toNat) (beginDecode s) with status := .ok }

/-- Everything a frame instruction can do, in the order in which it is tested. -/
theorem runVariant_eq (v : Variant) (p : Probe) (s : State) :
    runVariant v p s =
      if s.operands.bufLen < s.operands.off + 6 then .next (errorState s .probeOutOfRange none none)
      else if p.p0.toNat < minSize v then
        .next (errorState s .truncatedFrame (some p.p0) (some (BitVec.ofNat 8 (minSize v))))
      else if s.operands.bufLen < s.operands.off + p.p0.toNat then
        .next (errorState s .sliceOutOfRange (some p.p0) none)
      else .next (messageState v p.p0 s) := by
  unfold runVariant
  rw [show probeLen = 6 from rfl]
  split
  · rfl
  · split
    · rfl
    · by_cases h : s.operands.bufLen < s.operands.off + p.p0.toNat
      · rw [if_pos h, memBytes_none h]
        rfl
      · rw [if_neg h, memBytes_some (by omega)]
        rfl

/-- A frame instruction never faults, is never refused, and leaves one of four states. -/
theorem runVariant_cases {v : Variant} {p : Probe} {s : State} {o : Host.Outcome State Fault Refusal}
    (h : runVariant v p s = o) :
    o = .next (errorState s .probeOutOfRange none none) ∨
    o = .next (errorState s .truncatedFrame (some p.p0) (some (BitVec.ofNat 8 (minSize v)))) ∨
    o = .next (errorState s .sliceOutOfRange (some p.p0) none) ∨
    o = .next (messageState v p.p0 s) := by
  rw [runVariant_eq] at h
  subst h
  split
  · exact .inl rfl
  · split
    · exact .inr (.inl rfl)
    · split
      · exact .inr (.inr (.inl rfl))
      · exact .inr (.inr (.inr rfl))

/-- Under this model's configuration an `Unknown` frame runs like every other variant. -/
theorem execUnknown_eq (length eirp byte2 frameControl byte4 byte5 : Byte) (s : State) :
    execUnknown length eirp byte2 frameControl byte4 byte5 s =
      runVariant .unknown ⟨length, eirp, byte2, frameControl, byte4, byte5⟩ s := rfl

/-- With no operation issued, an act of the host has its result. -/
@[simp] theorem whenIdle_idle {α : Type} {s : State} (h : s.op = none) (result : Host.Outcome α Fault Refusal) :
    whenIdle s result = result := by
  rw [whenIdle, h]

/-- Between the issue of an operation and its end, every act of the host is refused. -/
@[simp] theorem whenIdle_issued {α : Type} {s : State} {code : BitVec 2} (h : s.op = some code)
    (result : Host.Outcome α Fault Refusal) : whenIdle s result = .refused .hostActDuringOperation := by
  rw [whenIdle, h]

/-- An act of the host that answers a next state was done with no operation issued, and is the act's own result. -/
theorem whenIdle_next {α : Type} {s : State} {result : Host.Outcome α Fault Refusal} {t : α}
    (h : whenIdle s result = .next t) : s.op = none ∧ result = .next t := by
  unfold whenIdle at h
  split at h
  · exact ⟨‹_›, h⟩
  · cases h

/-- The whole of the host's read port. -/
theorem readResult_cases (reg : ResultReg) (s : State) :
    (s.op = none ∧ ∃ v, s.resultReg reg = some v ∧ readResult reg s = .next v) ∨
    (s.op = none ∧ s.resultReg reg = none ∧ readResult reg s = .fault (.noValue reg)) ∨
    (s.op ≠ none ∧ readResult reg s = .refused .hostActDuringOperation) := by
  unfold readResult
  cases ho : s.op with
  | some code => exact .inr (.inr ⟨nofun, whenIdle_issued ho _⟩)
  | none =>
    rw [whenIdle_idle ho]
    cases s.resultReg reg with
    | none => exact .inr (.inl ⟨rfl, rfl, rfl⟩)
    | some v => exact .inl ⟨rfl, v, rfl, rfl⟩

/-- Everything a rewrite of a byte can do. -/
theorem hostStore_next {a : Nat} {b : Byte} {s t : State} (h : hostStore a b s = .next t) :
    s.op = none ∧ a < s.operands.bufLen ∧ t = s.withByte a b := by
  obtain ⟨ho, h⟩ := whenIdle_next h
  split at h
  · exact ⟨ho, ‹_›, (Host.Outcome.next.inj h).symm⟩
  · cases h

/-- Everything a copy of `NEXT` into `OFF` can do. -/
theorem hostAdvance_next {s t : State} (h : hostAdvance s = .next t) :
    s.op = none ∧ ∃ n, s.results.next = some n ∧ t = s.withOffset n := by
  obtain ⟨ho, h⟩ := whenIdle_next h
  split at h
  · exact ⟨ho, _, ‹_›, (Host.Outcome.next.inj h).symm⟩
  · cases h

end Sys2Proof.Machine
end

