-- ==== Sys2Proof/Laws/PerInstr.lean ====
section
/-! SUPPORT. A fact about every instruction as syntax: its encoding carries the fixed bits of its row of the opcode table
(spec/30_encoding.md R66, R67). -/

namespace Sys2Proof.Laws.MatchesRow

/-- A code carries the bits its row fixes: the row's mask and match on the probe word, or the operation code. -/
def codeMatches : Code → Word48 → Word48 → Prop
  | .frame p, mask, value => packProbe p &&& mask = value
  | .op code, mask, value => code.setWidth 48 &&& mask = value

/-- The mask and match of each instruction's row. -/
def rowOf : Instr → Word48 × Word48
  | .shortBroadcast _ _ _ _ _ => (0x000000FF0000#48, 0x000000040000#48)
  | .directed _ _ _ _ _ => (0x000000FF0000#48, 0x000000200000#48)
  | .shortDirected _ _ _ _ _ => (0x000000FF0000#48, 0x000000050000#48)
  | .beacon _ _ _ _ => (0x000000FF00FF#48, 0x000000220040#48)
  | .broadcast _ _ _ _ => (0x000000FF00FF#48, 0x000000220041#48)
  | .illegalAddressControl _ _ _ _ _ => (0x000000FF0000#48, 0x000000220000#48)
  | .unknown _ _ _ _ _ _ => (0#48, 0#48)
  | .calculateCrc16 => (3#48, 0#48)
  | .decodeFrame => (3#48, 1#48)
  | .selfCheck => (3#48, 2#48)
  | .unassigned => (3#48, 3#48)

def Statement (i : Instr) : Prop := codeMatches (encode i) (rowOf i).1 (rowOf i).2

/-- A probe word seen through the mask of its frame-control byte. -/
theorem packProbe_mask_p3 (p : Probe) : packProbe p &&& 0x000000FF0000#48 = p.p3.setWidth 48 <<< 16 := by
  ext i hi
  simp only [packProbe, BitVec.getElem_and, BitVec.getElem_shiftLeft, BitVec.getElem_append, BitVec.getElem_setWidth]
  interval_cases i <;> simp

/-- A probe word seen through the mask of both discriminant bytes. -/
theorem packProbe_mask_p3_p5 (p : Probe) :
    packProbe p &&& 0x000000FF00FF#48 = (p.p3.setWidth 48 <<< 16) ||| p.p5.setWidth 48 := by
  ext i hi
  simp only [packProbe, BitVec.getElem_and, BitVec.getElem_or, BitVec.getElem_shiftLeft, BitVec.getElem_append,
    BitVec.getElem_setWidth]
  interval_cases i <;> simp

theorem shortBroadcast (length eirp msgId uid0 uid1 : Byte) :
    Statement (.shortBroadcast length eirp msgId uid0 uid1) :=
  (packProbe_mask_p3 ⟨length, eirp, msgId, 0x04#8, uid0, uid1⟩).trans
    (show (0x04#8).setWidth 48 <<< 16 = 0x000000040000#48 by decide)

theorem directed (length eirp subnet msgId addrControl : Byte) :
    Statement (.directed length eirp subnet msgId addrControl) :=
  (packProbe_mask_p3 ⟨length, eirp, subnet, 0x20#8, msgId, addrControl⟩).trans
    (show (0x20#8).setWidth 48 <<< 16 = 0x000000200000#48 by decide)

theorem shortDirected (length eirp msgId uid0 uid1 : Byte) :
    Statement (.shortDirected length eirp msgId uid0 uid1) :=
  (packProbe_mask_p3 ⟨length, eirp, msgId, 0x05#8, uid0, uid1⟩).trans
    (show (0x05#8).setWidth 48 <<< 16 = 0x000000050000#48 by decide)

theorem beacon (length eirp subnet msgId : Byte) : Statement (.beacon length eirp subnet msgId) :=
  (packProbe_mask_p3_p5 ⟨length, eirp, subnet, 0x22#8, msgId, 0x40#8⟩).trans
    (show (0x22#8).setWidth 48 <<< 16 ||| (0x40#8).setWidth 48 = 0x000000220040#48 by decide)

theorem broadcast (length eirp subnet msgId : Byte) : Statement (.broadcast length eirp subnet msgId) :=
  (packProbe_mask_p3_p5 ⟨length, eirp, subnet, 0x22#8, msgId, 0x41#8⟩).trans
    (show (0x22#8).setWidth 48 <<< 16 ||| (0x41#8).setWidth 48 = 0x000000220041#48 by decide)

theorem illegalAddressControl (length eirp subnet msgId addrControl : Byte) :
    Statement (.illegalAddressControl length eirp subnet msgId addrControl) :=
  (packProbe_mask_p3 ⟨length, eirp, subnet, 0x22#8, msgId, addrControl⟩).trans
    (show (0x22#8).setWidth 48 <<< 16 = 0x000000220000#48 by decide)

theorem unknown (length eirp byte2 frameControl byte4 byte5 : Byte) :
    Statement (.unknown length eirp byte2 frameControl byte4 byte5) :=
  BitVec.and_zero

theorem calculateCrc16 : Statement .calculateCrc16 :=
  show (0#2).setWidth 48 &&& 3#48 = 0#48 by decide

theorem decodeFrame : Statement .decodeFrame :=
  show (1#2).setWidth 48 &&& 3#48 = 1#48 by decide

theorem selfCheck : Statement .selfCheck :=
  show (2#2).setWidth 48 &&& 3#48 = 2#48 by decide

theorem unassigned : Statement .unassigned :=
  show (3#2).setWidth 48 &&& 3#48 = 3#48 by decide

end Sys2Proof.Laws.MatchesRow
end

