-- ==== Sys2Proof/Tests/Slice0.lean ====
section
/-! SUPPORT. The model's own tests: words of spec/30_encoding.md, vectors of spec/95_test_vectors.md, the ill-formed terms, and one
witness for the hypotheses of each statement that has some. -/

-- Each of these small theorems is checked in turn: one thread for each of them would not fit the host's memory limit.
set_option Elab.async false

namespace Sys2Proof.Tests

open Sys2Proof.Machine

/-! ### Helpers -/

/-- A buffer loaded, a cursor set and `decodeFrame` issued, from reset. -/
def ready (bytes : List Byte) (off : Nat) : State := ((State.reset.withBuffer bytes).withOffset off).issue 1#2

def nextOf (o : Host.Outcome State Fault Refusal) : Option State :=
  match o with
  | .next t => some t
  | .fault _ => none
  | .refused _ => none

/-- One step, seen through `f`. -/
def after {α : Type} (f : State → α) (s : State) : Option α := (nextOf (step s)).map f

/-- Vector SB of section 3.1. -/
def vecSB : List Byte :=
  [0x0E#8, 0x10#8, 0x07#8, 0x04#8, 0x00#8, 0x11#8, 0x22#8, 0x33#8, 0x44#8, 0x55#8, 0x66#8, 0x77#8, 0x2C#8, 0x86#8]

/-- Vector SBc of section 3.3: SB with byte 6 changed. -/
def vecSBc : List Byte :=
  [0x0E#8, 0x10#8, 0x07#8, 0x04#8, 0x00#8, 0x11#8, 0x23#8, 0x33#8, 0x44#8, 0x55#8, 0x66#8, 0x77#8, 0x2C#8, 0x86#8]

/-- Vector SBmin of section 3.3. -/
def vecSBmin : List Byte :=
  [0x0C#8, 0x10#8, 0x07#8, 0x04#8, 0x00#8, 0x11#8, 0x22#8, 0x33#8, 0x44#8, 0x55#8, 0x66#8, 0x77#8]

/-- Vector SBtr of section 3.4: one below the minimum. -/
def vecSBtr : List Byte :=
  [0x0B#8, 0x10#8, 0x07#8, 0x04#8, 0x00#8, 0x11#8, 0x22#8, 0x33#8, 0x44#8, 0x55#8, 0x66#8, 0x77#8]

/-- Vector SL of section 3.4: SB without its last byte. -/
def vecSL : List Byte :=
  [0x0E#8, 0x10#8, 0x07#8, 0x04#8, 0x00#8, 0x11#8, 0x22#8, 0x33#8, 0x44#8, 0x55#8, 0x66#8, 0x77#8, 0x2C#8]

/-- Vector SD of section 3.1. -/
def vecSD : List Byte :=
  [0x0E#8, 0x12#8, 0x08#8, 0x05#8, 0x88#8, 0x99#8, 0xAA#8, 0xBB#8, 0xCC#8, 0xDD#8, 0xEE#8, 0xFF#8, 0x5B#8, 0x86#8]

/-- Vector DI of section 3.1. -/
def vecDI : List Byte :=
  [0x19#8, 0x18#8, 0xA5#8, 0x20#8, 0x03#8, 0x00#8, 0x01#8, 0x02#8, 0x03#8, 0x04#8, 0x05#8, 0x06#8, 0x07#8, 0x08#8,
   0x11#8, 0x12#8, 0x13#8, 0x14#8, 0x15#8, 0x16#8, 0x17#8, 0x18#8, 0x5A#8, 0x76#8, 0xF2#8]

/-- Vector BE of section 3.1. -/
def vecBE : List Byte :=
  [0x10#8, 0x14#8, 0xA5#8, 0x22#8, 0x01#8, 0x40#8, 0x01#8, 0x02#8, 0x03#8, 0x04#8, 0x05#8, 0x06#8, 0x07#8, 0x08#8,
   0xFA#8, 0xDD#8]

/-- Vector BR of section 3.1. -/
def vecBR : List Byte :=
  [0x18#8, 0x16#8, 0xA5#8, 0x22#8, 0x02#8, 0x41#8, 0x01#8, 0x02#8, 0x03#8, 0x04#8, 0x05#8, 0x06#8, 0x07#8, 0x08#8,
   0xF0#8, 0xF1#8, 0xF2#8, 0xF3#8, 0xF4#8, 0xF5#8, 0xF6#8, 0xF7#8, 0xE8#8, 0xE6#8]

/-- Vector IL of section 3.4. -/
def vecIL : List Byte :=
  [0x10#8, 0x14#8, 0xA5#8, 0x22#8, 0x01#8, 0x99#8, 0x00#8, 0x00#8, 0x00#8, 0x00#8, 0x00#8, 0x00#8, 0x00#8, 0x00#8,
   0x00#8, 0x00#8]

/-- Vector UN2 of section 3.3: the smallest frame. -/
def vecUN2 : List Byte := [0x02#8, 0x33#8, 0x00#8, 0x00#8, 0x00#8, 0x00#8]

/-- Vector UN of section 3.1. -/
def vecUN : List Byte := [0x08#8, 0x20#8, 0xAA#8, 0x7F#8, 0xBB#8, 0xCC#8, 0xA7#8, 0x35#8]

/-! ### WellFormed: each check refuses an ill-formed term -/

theorem test_illegal_0x40_is_ill_formed :
    (Instr.illegalAddressControl 0x10#8 0x14#8 0xA5#8 0x01#8 0x40#8).wellFormed = false := by decide
theorem test_illegal_0x41_is_ill_formed :
    (Instr.illegalAddressControl 0x10#8 0x14#8 0xA5#8 0x01#8 0x41#8).wellFormed = false := by decide
theorem test_unknown_0x04_is_ill_formed :
    (Instr.unknown 0x08#8 0x20#8 0xAA#8 0x04#8 0xBB#8 0xCC#8).wellFormed = false := by decide
theorem test_unknown_0x05_is_ill_formed :
    (Instr.unknown 0x08#8 0x20#8 0xAA#8 0x05#8 0xBB#8 0xCC#8).wellFormed = false := by decide
theorem test_unknown_0x20_is_ill_formed :
    (Instr.unknown 0x08#8 0x20#8 0xAA#8 0x20#8 0xBB#8 0xCC#8).wellFormed = false := by decide
theorem test_unknown_0x22_is_ill_formed :
    (Instr.unknown 0x08#8 0x20#8 0xAA#8 0x22#8 0xBB#8 0xCC#8).wellFormed = false := by decide
theorem test_unknown_0x7F_is_well_formed :
    (Instr.unknown 0x08#8 0x20#8 0xAA#8 0x7F#8 0xBB#8 0xCC#8).wellFormed = true := by decide

/-! ### Decoding: a word of every constructor, bytes written out from R51 to R57 and R67 -/

theorem test_decode_shortBroadcast :
    (decodeBytes [0x0E#8, 0x10#8, 0x07#8, 0x04#8, 0x00#8, 0x11#8, 0x22#8]).toOption =
      some (.shortBroadcast 0x0E#8 0x10#8 0x07#8 0x00#8 0x11#8, [0x22#8]) := by decide
theorem test_decode_directed :
    (decodeBytes [0x19#8, 0x18#8, 0xA5#8, 0x20#8, 0x03#8, 0x99#8]).toOption =
      some (.directed 0x19#8 0x18#8 0xA5#8 0x03#8 0x99#8, []) := by decide
theorem test_decode_shortDirected :
    (decodeBytes [0x0E#8, 0x12#8, 0x08#8, 0x05#8, 0x88#8, 0x41#8]).toOption =
      some (.shortDirected 0x0E#8 0x12#8 0x08#8 0x88#8 0x41#8, []) := by decide
theorem test_decode_beacon :
    (decodeBytes [0x10#8, 0x14#8, 0xA5#8, 0x22#8, 0x01#8, 0x40#8]).toOption =
      some (.beacon 0x10#8 0x14#8 0xA5#8 0x01#8, []) := by decide
theorem test_decode_broadcast :
    (decodeBytes [0x18#8, 0x16#8, 0xA5#8, 0x22#8, 0x02#8, 0x41#8]).toOption =
      some (.broadcast 0x18#8 0x16#8 0xA5#8 0x02#8, []) := by decide
theorem test_decode_illegal :
    (decodeBytes [0x00#8, 0x14#8, 0xA5#8, 0x22#8, 0x01#8, 0x42#8]).toOption =
      some (.illegalAddressControl 0x00#8 0x14#8 0xA5#8 0x01#8 0x42#8, []) := by decide
theorem test_decode_unknown_whole_byte :
    (decodeBytes [0x20#8, 0x01#8, 0x02#8, 0x24#8, 0x04#8, 0x40#8]).toOption =
      some (.unknown 0x20#8 0x01#8 0x02#8 0x24#8 0x04#8 0x40#8, []) := by decide
theorem test_decode_operation_codes :
    [decodeOp 0#2, decodeOp 1#2, decodeOp 2#2, decodeOp 3#2] =
      [.calculateCrc16, .decodeFrame, .selfCheck, .unassigned] := by decide
theorem test_five_bytes_are_rejected :
    decodeBytes [0x0E#8, 0x10#8, 0x07#8, 0x04#8, 0x00#8] = .error (.probeTooShort 5) := by rfl
/-- The probe word of vector BE as spec/95_test_vectors.md prints it. -/
theorem test_probe_word_of_beacon :
    packProbe ⟨0x10#8, 0x14#8, 0xA5#8, 0x22#8, 0x01#8, 0x40#8⟩ = 0x1014A5220140#48 := by decide
theorem test_table_word_of_row_bits :
    decodeTableWord 24 0x220040 = some (.beacon 0x00#8 0x00#8 0x00#8 0x00#8) := by decide

/-! ### The Checksum Engine: section 2 of spec/95_test_vectors.md -/

theorem test_crc_steps :
    [crcStep 0x1234#16 0x56#8, crcStep 0xABCD#16 0xEF#8, crcStep 0x8000#16 0x80#8, crcStep 0x0000#16 0x80#8] =
      [0x3C40#16, 0xC540#16, 0x0000#16, 0x9188#16] := by decide
theorem test_crc_sequences :
    [crc16 [0x41#8] 0xFFFF#16, crc16 [0x00#8, 0x00#8] 0xFFFF#16, crc16 checkInput 0x1D0F#16,
      crc16 [0x35#8, 0x36#8, 0x37#8, 0x38#8, 0x39#8] 0x5349#16] =
      [0xB915#16, 0x1D0F#16, 0xE5CC#16, 0x29B1#16] := by decide
theorem test_calculateCrc16_1234 :
    after (fun t => (t.crcOut, t.status))
      ((State.reset.withChecksumOperands [0x31#8, 0x32#8, 0x33#8, 0x34#8] 0xFFFF#16).issue 0#2) =
      some (some 0x5349#16, .ok) := by decide
theorem test_selfCheck_from_reset :
    after (fun t => (t.selfOk, t.op)) (State.reset.issue 2#2) = some (some true, none) := by decide

/-! ### Frames: section 3 of spec/95_test_vectors.md -/

theorem test_step_SB :
    after (fun t => (t.results.fSrcUid, t.results.cCrc, t.results.tBits, t.results.next))
      (ready vecSB 0) = some (some 0x0011223344556677#64, some 0x2C86#16, some 200#32, some 14) := by decide +kernel
/-- Vector Offset: three bytes of junk before SB. -/
theorem test_step_SB_at_offset_3 :
    after (fun t => (t.results.rawBase, t.results.fMsgId, t.results.next))
      (ready ([0xAA#8, 0xBB#8, 0xCC#8] ++ vecSB ++ [0xDD#8]) 3) = some (some 3, some 0x07#8, some 17) := by decide +kernel
theorem test_step_SBmin :
    after (fun t => (t.results.eCrc, t.results.cCrc)) (ready vecSBmin 0) =
      some (some 0x6677#16, some 0x70E7#16) := by decide +kernel
theorem test_step_SD :
    after (fun t => (t.results.fDstUid, t.results.fSrcUid, t.results.cCrc)) (ready vecSD 0) =
      some (some 0x8899AABBCCDDEEFF#64, none, some 0x5B86#16) := by decide +kernel
theorem test_step_DI :
    after (fun t => (t.results.fDstUid, t.results.fOpenTag1, t.results.cCrc)) (ready vecDI 0) =
      some (some 0x1112131415161718#64, some 0x5A#8, some 0x76F2#16) := by decide +kernel
theorem test_step_BE :
    after (fun t => (t.results.fSrcUid, t.results.fLength, t.results.cCrc)) (ready vecBE 0) =
      some (some 0x0102030405060708#64, none, some 0xFADD#16) := by decide +kernel
theorem test_step_BR :
    after (fun t => (t.results.fOpenTag8, t.results.dLen, t.results.cCrc)) (ready vecBR 0) =
      some (some [0xF0#8, 0xF1#8, 0xF2#8, 0xF3#8, 0xF4#8, 0xF5#8, 0xF6#8, 0xF7#8], some 24#8, some 0xE8E6#16) := by
  decide +kernel
theorem test_step_UN2 :
    after (fun t => (t.results.fEirp, t.results.eCrc, t.results.cCrc, t.results.next)) (ready vecUN2 0) =
      some (some 0x33#8, some 0x0233#16, some 0xFFFF#16, some 2) := by decide +kernel
theorem test_step_IL :
    after (fun t => (t.status, t.results.err0, t.results.variant)) (ready vecIL 0) =
      some (.illegalAddressControl, some 0x99#8, none) := by decide +kernel
theorem test_step_SBtr :
    after (fun t => (t.status, t.results.err0, t.results.err1)) (ready vecSBtr 0) =
      some (.truncatedFrame, some 0x0B#8, some 0x0C#8) := by decide +kernel
theorem test_step_SL :
    after (fun t => (t.status, t.results.err0)) (ready vecSL 0) = some (.sliceOutOfRange, some 0x0E#8) := by decide +kernel
theorem test_step_PRe :
    after (fun t => (t.status, t.results.err0)) (ready vecSB 14) = some (.probeOutOfRange, none) := by decide +kernel
theorem test_unassigned_is_refused : nextOf (step (State.reset.issue 3#2)) = none := by decide +kernel

/-- A word of the table placed as the first instruction after reset runs: a ShortBroadcast of 14 bytes, zeros past its probe. -/
theorem test_fetch_word_runs_the_frame :
    after (fun t => (t.status, t.results.fSrcUid)) (State.reset.withFetchWord 48 0x0E1007040011) =
      some (.ok, some 0x0011000000000000#64) := by decide +kernel
/-- The fixed bits of a row alone, length byte 0: the row's frame runs and is truncated. -/
theorem test_fetch_word_of_row_bits :
    after (fun t => (t.status, t.results.err1)) (State.reset.withFetchWord 24 0x220040) =
      some (.truncatedFrame, some 14#8) := by decide +kernel
/-- Program P1 of section 4.1: two frames, a clean end. -/
theorem test_walk_P1 :
    ((walk 4 (ready (vecSB ++ vecBE) 0)).ending, (walk 4 (ready (vecSB ++ vecBE) 0)).frames) = (.clean, 2) := by decide +kernel
/-- Program P4 of section 4.4: a walk that ends with residue. -/
theorem test_walk_P4 :
    (walk 4 (ready (vecSB ++ [0x0E#8, 0x10#8, 0x07#8]) 0)).ending = .residue := by decide +kernel

/-! ### Witnesses: a state and operands that meet the hypotheses of a statement, one per clause

A statement's own name follows `witness_`. Where a statement only supposes that an operation answers a next state, the witness is a
state for which it does, with the outcome the clause speaks of. -/

theorem witness_EncodedInstructionDecodesToItself :
    (Instr.illegalAddressControl 0x10#8 0x14#8 0xA5#8 0x01#8 0x3F#8).wellFormed = true := by decide
theorem witness_StepRunsTheIssuedOperation_idle : State.reset.op = none := by decide
theorem witness_StepRunsTheIssuedOperation_issued : (State.reset.issue 2#2).op = some 2#2 := by decide
/-- The last six bytes of the buffer. -/
theorem witness_StepRunsTheFrameAtTheCursor :
    (ready vecUN2 0).op = some 1#2 ∧ memBytes (ready vecUN2 0) (ready vecUN2 0).operands.off 6 = some vecUN2 ∧
      (decodeBytes vecUN2).toOption = some (.unknown 0x02#8 0x33#8 0#8 0#8 0#8 0#8, []) := by decide +kernel
theorem witness_OperationCodesSelectTheOperations : (State.reset.issue 3#2).op = some 3#2 := by decide
theorem witness_CrcDetectsOneChangedByte : (0x38#8 : Byte) ≠ 0x39#8 := by decide
theorem witness_MemBytesReadsExactlyTheRange : memBytes (ready vecUN2 0) 0 6 = some vecUN2 := by decide +kernel

/-- At the minimum and exactly filling the buffer. -/
theorem witness_ShortBroadcastDecodesItsLayout :
    12 ≤ (0x0C#8 : Byte).toNat ∧
      (ready vecSBmin 0).operands.off + (0x0C#8 : Byte).toNat ≤ (ready vecSBmin 0).operands.bufLen := by decide +kernel
theorem witness_ShortDirectedDecodesItsLayout :
    12 ≤ (0x0E#8 : Byte).toNat ∧
      (ready vecSD 0).operands.off + (0x0E#8 : Byte).toNat ≤ (ready vecSD 0).operands.bufLen := by decide +kernel
theorem witness_DirectedDecodesItsLayout :
    23 ≤ (0x19#8 : Byte).toNat ∧
      (ready vecDI 0).operands.off + (0x19#8 : Byte).toNat ≤ (ready vecDI 0).operands.bufLen := by decide +kernel
theorem witness_BeaconDecodesItsLayout :
    14 ≤ (0x10#8 : Byte).toNat ∧
      (ready vecBE 0).operands.off + (0x10#8 : Byte).toNat ≤ (ready vecBE 0).operands.bufLen := by decide +kernel
theorem witness_BroadcastDecodesItsLayout :
    22 ≤ (0x18#8 : Byte).toNat ∧
      (ready vecBR 0).operands.off + (0x18#8 : Byte).toNat ≤ (ready vecBR 0).operands.bufLen := by decide +kernel
theorem witness_UnknownDecodesLengthAndEirp :
    2 ≤ (0x02#8 : Byte).toNat ∧ (ready vecUN2 0).operands.off + 6 ≤ (ready vecUN2 0).operands.bufLen ∧
      (ready vecUN2 0).operands.off + (0x02#8 : Byte).toNat ≤ (ready vecUN2 0).operands.bufLen := by decide +kernel
theorem witness_IllegalAddressControlReportsTheByte :
    (ready vecIL 0).operands.off + 6 ≤ (ready vecIL 0).operands.bufLen := by decide +kernel

/-- One byte short of a probe. -/
theorem witness_FrameInstructionsRaiseInOrder_probe :
    (ready vecUN2 1).operands.bufLen < (ready vecUN2 1).operands.off + 6 := by decide +kernel
/-- One below the minimum. -/
theorem witness_FrameInstructionsRaiseInOrder_truncated :
    select (probeAtCursor (ready vecSBtr 0)) = .variant .shortBroadcast ∧
      (ready vecSBtr 0).operands.off + 6 ≤ (ready vecSBtr 0).operands.bufLen ∧
      (probeAtCursor (ready vecSBtr 0)).p0.toNat < minSize .shortBroadcast := by decide +kernel
/-- One byte short of the slice. -/
theorem witness_FrameInstructionsRaiseInOrder_slice :
    select (probeAtCursor (ready vecSL 0)) = .variant .shortBroadcast ∧
      (ready vecSL 0).operands.off + 6 ≤ (ready vecSL 0).operands.bufLen ∧
      minSize .shortBroadcast ≤ (probeAtCursor (ready vecSL 0)).p0.toNat ∧
      (ready vecSL 0).operands.bufLen < (ready vecSL 0).operands.off + (probeAtCursor (ready vecSL 0)).p0.toNat := by
  decide +kernel

/-- The first clause, at the clean end of a buffer; the truncated and slice clauses have the witnesses above. -/
theorem witness_DecodeFrameFollowsTheWholeRule_probe :
    (ready vecSB 14).operands.bufLen < (ready vecSB 14).operands.off + 6 := by decide +kernel
theorem witness_DecodeFrameFollowsTheWholeRule_illegal :
    (ready vecIL 0).operands.off + 6 ≤ (ready vecIL 0).operands.bufLen ∧
      select (probeAtCursor (ready vecIL 0)) = .illegalAddressControl := by decide +kernel
/-- A length of exactly the minimum that exactly fills the buffer. -/
theorem witness_DecodeFrameFollowsTheWholeRule_decodes :
    (ready vecSBmin 0).operands.off + 6 ≤ (ready vecSBmin 0).operands.bufLen ∧
      select (probeAtCursor (ready vecSBmin 0)) = .variant .shortBroadcast ∧
      minSize .shortBroadcast = (byteAtCursor (ready vecSBmin 0) 0).toNat ∧
      (ready vecSBmin 0).operands.off + (byteAtCursor (ready vecSBmin 0) 0).toNat =
        (ready vecSBmin 0).operands.bufLen := by decide +kernel

/-- What `decodeFrame` answers, seen through `f`. -/
def decoded {α : Type} (f : State → α) (s : State) : Option α := (nextOf (exec .decodeFrame s)).map f

theorem witness_ProbeOutOfRangeExactlyWhenBytesMissing :
    decoded State.status (ready vecUN2 1) = some .probeOutOfRange := by decide +kernel
theorem witness_IllegalAddressControlOnlyInItsFamily :
    (ready vecIL 0).operands.off + 6 ≤ (ready vecIL 0).operands.bufLen ∧
      decoded State.status (ready vecIL 0) = some .illegalAddressControl := by decide +kernel
theorem witness_TruncatedFrameExactlyWhenTooShort :
    (ready vecSBtr 0).operands.off + 6 ≤ (ready vecSBtr 0).operands.bufLen ∧
      decoded State.status (ready vecSBtr 0) = some .truncatedFrame := by decide +kernel
theorem witness_SliceOutOfRangeExactlyWhenItRunsPast :
    decoded State.status (ready vecSL 0) = some .sliceOutOfRange := by decide +kernel
theorem witness_ErrorsLeaveOnlyStatusAndPayload : decoded State.status (ready vecIL 0) ≠ some .ok ∧
    (decoded State.status (ready vecIL 0)).isSome = true := by decide +kernel
theorem witness_MessageIsUnreadableAfterAnError : decoded State.status (ready vecIL 0) = some .illegalAddressControl ∧
    ResultReg.next ≠ .status ∧ ResultReg.next ≠ .err0 ∧ ResultReg.next ≠ .err1 ∧ ResultReg.next ≠ .crcOut ∧
    ResultReg.next ≠ .selfOk := by decide +kernel
theorem witness_SuccessfulDecodeMovesTheCursorForward :
    decoded State.status (ready vecUN2 0) = some .ok := by decide +kernel
theorem witness_TotalBitLengthCountsBytesAndOverhead : decoded State.status (ready vecBE 0) = some .ok := by
  decide +kernel
theorem witness_MinimumFrameChecksumOverlapsItsLastField_shortBroadcast :
    decoded (fun t => (t.status, t.results.variant)) (ready vecSBmin 0) = some (.ok, some .shortBroadcast) ∧
      (byteAtCursor (ready vecSBmin 0) 0).toNat = minSize .shortBroadcast := by decide +kernel
/-- BEmin, and vectors SD, DI and BR cut to their minimum: a first byte of the minimum and no checksum of their own. -/
theorem witness_MinimumFrameChecksumOverlapsItsLastField_beacon :
    decoded (fun t => (t.status, t.results.variant)) (ready ((0x0E#8 : Byte) :: vecBE.tail.take 13) 0) =
      some (.ok, some .beacon) := by decide +kernel
theorem witness_MinimumFrameChecksumOverlapsItsLastField_shortDirected :
    decoded (fun t => (t.status, t.results.variant)) (ready ((0x0C#8 : Byte) :: vecSD.tail.take 11) 0) =
      some (.ok, some .shortDirected) := by decide +kernel
theorem witness_MinimumFrameChecksumOverlapsItsLastField_directed :
    decoded (fun t => (t.status, t.results.variant)) (ready ((0x17#8 : Byte) :: vecDI.tail.take 22) 0) =
      some (.ok, some .directed) := by decide +kernel
theorem witness_MinimumFrameChecksumOverlapsItsLastField_broadcast :
    decoded (fun t => (t.status, t.results.variant)) (ready ((0x16#8 : Byte) :: vecBR.tail.take 21) 0) =
      some (.ok, some .broadcast) := by decide +kernel
theorem witness_MinimumFrameChecksumOverlapsItsLastField_unknown :
    decoded (fun t => (t.status, t.results.variant)) (ready vecUN2 0) = some (.ok, some .unknown) := by
  decide +kernel

theorem witness_NoInstructionWritesAnOperand :
    (nextOf (exec (.beacon 0x10#8 0x14#8 0xA5#8 0x01#8) (ready vecBE 0))).isSome = true := by decide +kernel
theorem witness_EveryAssignedInstructionRunsToAnOutcome : Instr.decodeFrame ≠ .unassigned := by decide
theorem witness_OnlyTheirOwnOperationWritesCrcOutAndSelfOk :
    (nextOf (exec .decodeFrame (ready vecBE 0))).isSome = true ∧ Instr.decodeFrame ≠ .calculateCrc16 ∧
      Instr.decodeFrame ≠ .selfCheck := by decide +kernel
/-- Two states that differ in an earlier result only. -/
theorem witness_ResultsDependOnTheOperandsAlone :
    (nextOf (exec .calculateCrc16 (ready vecBE 0))).isSome = true ∧
      (nextOf (exec .calculateCrc16 { ready vecBE 0 with crcOut := some 5#16 })).isSome = true := by decide +kernel
/-- Vector SB followed by two different bytes. -/
theorem witness_DecodeFrameDependsOnlyOnProbeAndSlice_ok :
    (∀ k : Nat, k < 6 → byteAtCursor (ready (vecSB ++ [1#8]) 0) k = byteAtCursor (ready (vecSB ++ [2#8]) 0) k) ∧
    (∀ k : Nat, k < (byteAtCursor (ready (vecSB ++ [1#8]) 0) 0).toNat →
      byteAtCursor (ready (vecSB ++ [1#8]) 0) k = byteAtCursor (ready (vecSB ++ [2#8]) 0) k) ∧
    (ready (vecSB ++ [1#8]) 0).operands.bufLen = (ready (vecSB ++ [2#8]) 0).operands.bufLen ∧
    decoded State.status (ready (vecSB ++ [1#8]) 0) = some .ok ∧
    decoded State.status (ready (vecSB ++ [2#8]) 0) = some .ok := by decide +kernel
/-- Two truncated frames that differ inside their declared length, past the probe. -/
theorem witness_DecodeFrameDependsOnlyOnProbeAndSlice_error :
    (∀ k : Nat, k < 6 → byteAtCursor (ready vecSBtr 0) k = byteAtCursor (ready (vecSBtr.take 6 ++ vecSD.take 6) 0) k) ∧
    byteAtCursor (ready vecSBtr 0) 6 ≠ byteAtCursor (ready (vecSBtr.take 6 ++ vecSD.take 6) 0) 6 ∧
    (ready vecSBtr 0).operands.bufLen = (ready (vecSBtr.take 6 ++ vecSD.take 6) 0).operands.bufLen ∧
    decoded State.status (ready vecSBtr 0) = some .truncatedFrame ∧
    decoded State.status (ready (vecSBtr.take 6 ++ vecSD.take 6) 0) = some .truncatedFrame := by decide +kernel
/-- Vector SB at cursors 0 and 3. -/
theorem witness_MessageDependsOnCursorOnlyThroughBaseAndNext :
    (∀ k : Nat, k < max 6 (byteAtCursor (ready vecSB 0) 0).toNat →
      byteAtCursor (ready vecSB 0) k = byteAtCursor (ready ([0xAA#8, 0xBB#8, 0xCC#8] ++ vecSB) 3) k) ∧
    (ready vecSB 0).operands.off + max 6 (byteAtCursor (ready vecSB 0) 0).toNat ≤ (ready vecSB 0).operands.bufLen ∧
    (ready ([0xAA#8, 0xBB#8, 0xCC#8] ++ vecSB) 3).operands.off + max 6 (byteAtCursor (ready vecSB 0) 0).toNat ≤
      (ready ([0xAA#8, 0xBB#8, 0xCC#8] ++ vecSB) 3).operands.bufLen ∧
    decoded State.status (ready vecSB 0) = some .ok ∧
    decoded State.status (ready ([0xAA#8, 0xBB#8, 0xCC#8] ++ vecSB) 3) = some .ok := by decide +kernel
theorem witness_ChecksumsAgreeExactlyWhenResidueIsZero : decoded State.status (ready vecSB 0) = some .ok := by
  decide +kernel
/-- Vectors SB and SBc, which differ in byte 6. -/
theorem witness_OneAlteredByteBreaksTheChecksum :
    byteAtCursor (ready vecSB 0) 0 = byteAtCursor (ready vecSBc 0) 0 ∧
    6 + 2 < (byteAtCursor (ready vecSB 0) 0).toNat ∧
    byteAtCursor (ready vecSB 0) 6 ≠ byteAtCursor (ready vecSBc 0) 6 ∧
    (∀ j : Nat, j < (byteAtCursor (ready vecSB 0) 0).toNat → j ≠ 6 →
      byteAtCursor (ready vecSB 0) j = byteAtCursor (ready vecSBc 0) j) ∧
    decoded State.status (ready vecSB 0) = some .ok ∧ decoded State.status (ready vecSBc 0) = some .ok := by
  decide +kernel
/-- A buffer loaded and no operation issued. -/
def loaded : State := State.reset.withBuffer vecUN2

theorem witness_LoadedBytesAreRead : loaded.op = none := rfl
/-- The last byte of the buffer, and the first address past it. -/
theorem witness_RewrittenByteIsSeenAndNoOther :
    loaded.op = none ∧ Memory.wf loaded.operands.buf = true ∧ 5 < loaded.operands.bufLen ∧ loaded.operands.bufLen ≤ 6 := by
  decide +kernel
/-- Reset with an operation issued is coherent and has a next state. -/
theorem witness_StepKeepsTheStateCoherent :
    (State.reset.issue 1#2).Coherent ∧ (nextOf (step (State.reset.issue 1#2))).isSome = true :=
  ⟨⟨rfl, rfl, by decide, rfl, rfl, rfl⟩, by decide +kernel⟩
/-- The acts with an operand of their own, on one coherent state. -/
theorem witness_HostActsKeepTheStateCoherent :
    loaded.Coherent ∧ (nextOf (hostLoad vecSB loaded)).isSome = true ∧ (nextOf (hostSetOffset 3 loaded)).isSome = true ∧
      (nextOf (hostSetData vecSB 0#16 loaded)).isSome = true ∧ (nextOf (hostIssue 1#2 loaded)).isSome = true ∧
      (nextOf (hostStore 5 7#8 loaded)).isSome = true :=
  ⟨⟨by decide +kernel, rfl, by decide, rfl, rfl, rfl⟩, by decide +kernel⟩
/-- The state vector UN2 leaves. -/
def afterUN2 : State := decodedState (ready vecUN2 0) .unknown 0x02#8 (registryFields (ready vecUN2 0) .unknown)

theorem witness_HostActsKeepTheStateCoherent_advance :
    afterUN2.Coherent ∧ (nextOf (hostAdvance afterUN2)).isSome = true := by
  refine ⟨⟨by decide +kernel, rfl, by decide, .inr ⟨.unknown, 0, 0x02#8, rfl, rfl, rfl, rfl, rfl, rfl, rfl, rfl, ?_⟩⟩,
    by decide +kernel⟩
  refine ⟨by decide, rfl, rfl, ?_, ?_, rfl, nofun, nofun, nofun⟩
  · intro f
    cases f <;> decide +kernel
  · intro b h
    exact (Option.some.inj (h.symm.trans (by decide +kernel : afterUN2.results.fLength = some 0x02#8)))

/-- With `NEXT` and without it, and with an operation issued. -/
theorem witness_HostActsLandOnlyBetweenOperations :
    afterUN2.op = none ∧ afterUN2.results.next = some 2 ∧ loaded.op = none ∧ loaded.results.next = none ∧
      (ready vecUN2 0).op ≠ none := by decide +kernel

/-- A buffer written between the issue of a decode and its end: no meaning, as U4 asks. -/
theorem test_no_write_during_an_operation :
    nextOf (hostStore 0 7#8 (ready vecUN2 0)) = none ∧ nextOf (hostLoad vecSB (ready vecUN2 0)) = none := by decide +kernel

end Sys2Proof.Tests
end

section
/-! SUPPORT. Nothing survives from earlier operations (spec/10_state.md R22): what an operation reports is a function of its
operands, and every operation leaves the engine idle. -/

namespace Sys2Proof.Machine

/-! ### The frame instructions, all at once -/

/-- The two forms of meaning a frame instruction has: steps 3 to 5 for a variant, or the decode error of R141. -/
inductive FrameMeaning : (State → Host.Outcome State Fault Refusal) → Prop where
  | variant (v : Variant) (p : Probe) : FrameMeaning (runVariant v p)
  | illegal (length eirp subnet msgId addrControl : Byte) :
    FrameMeaning (execIllegalAddressControl length eirp subnet msgId addrControl)

/-- Every instruction is a frame or one of the four codes of the operation select (R1, R67). -/
theorem exec_frameMeaning_or_operation (i : Instr) :
    FrameMeaning (exec i) ∨ i = .calculateCrc16 ∨ i = .decodeFrame ∨ i = .selfCheck ∨ i = .unassigned := by
  cases i with
  | shortBroadcast => exact .inl (.variant _ _)
  | directed => exact .inl (.variant _ _)
  | shortDirected => exact .inl (.variant _ _)
  | beacon => exact .inl (.variant _ _)
  | broadcast => exact .inl (.variant _ _)
  | illegalAddressControl => exact .inl (.illegal _ _ _ _ _)
  | unknown => exact .inl (.variant _ _)
  | calculateCrc16 => exact .inr (.inl rfl)
  | decodeFrame => exact .inr (.inr (.inl rfl))
  | selfCheck => exact .inr (.inr (.inr (.inl rfl)))
  | unassigned => exact .inr (.inr (.inr (.inr rfl)))

/-- A probe stands for a frame, never for an operation code (R58). -/
theorem frameMeaning_exec_decodeProbe (p : Probe) : FrameMeaning (exec (decodeProbe p)) := by
  unfold decodeProbe
  split
  case h_7 => exact .illegal _ _ _ _ _
  all_goals exact .variant _ _

/-- Everything an illegal address-control frame can do, in the order of R147. -/
theorem execIllegalAddressControl_eq (length eirp subnet msgId addrControl : Byte) (s : State) :
    execIllegalAddressControl length eirp subnet msgId addrControl s =
      if s.operands.bufLen < s.operands.off + 6 then .next (errorState s .probeOutOfRange none none)
      else .next (errorState s .illegalAddressControl (some addrControl) none) := rfl

/-- `decodeFrame` without six bytes at the cursor (R101, R144). -/
theorem exec_decodeFrame_of_probe_missing {s : State} (h : s.operands.bufLen < s.operands.off + 6) :
    exec .decodeFrame s = .next (errorState s .probeOutOfRange none none) := by
  have hprobe : fetchProbe s = none := by rw [fetchProbe_eq, if_neg (by omega)]
  change execDecodeFrame s = _
  rw [execDecodeFrame, hprobe]
  rfl

/-- `decodeFrame` with a probe runs the frame instruction the probe stands for (R100). -/
theorem exec_decodeFrame_of_probe {s : State} (h : s.operands.off + 6 ≤ s.operands.bufLen) :
    exec .decodeFrame s = exec (decodeProbe (probeAtCursor s)) s := by
  have hprobe : fetchProbe s = some (probeAtCursor s) := by rw [fetchProbe_eq, if_pos h]
  change execDecodeFrame s = _
  simp only [execDecodeFrame, hprobe, decodeProbe]
  cases select (probeAtCursor s) with
  | variant v => cases v <;> rfl
  | illegalAddressControl => rfl

/-! ### What an operation reports depends on `BUF`, `BUFLEN` and `OFF` alone -/

/-- The two states agree on the operands a frame decode reads. -/
structure SameFrameOperands (s s' : State) : Prop where
  buf : s.operands.buf = s'.operands.buf
  bufLen : s.operands.bufLen = s'.operands.bufLen
  off : s.operands.off = s'.operands.off

/-- `STATUS` and the `decodeFrame` results, as an outcome leaves them. -/
def reported : Host.Outcome State Fault Refusal → Option (Status × Results)
  | .next t => some (t.status, t.results)
  | .fault _ => none
  | .refused _ => none

@[simp] theorem reported_next (t : State) : reported (.next t) = some (t.status, t.results) := rfl

/-- An error reports its status and payload, whatever the state was before it (R148). -/
theorem reported_errorState_congr (s s' : State) (status : Status) (err0 err1 : Option Byte) :
    reported (.next (errorState s status err0 err1)) = reported (.next (errorState s' status err0 err1)) := rfl

/-- The probe at the cursor reads nothing but `BUF` and `OFF`. -/
theorem probeAtCursor_congr {s s' : State} (h : SameFrameOperands s s') : probeAtCursor s = probeAtCursor s' := by
  simp only [probeAtCursor, byteAtCursor, h.buf, h.off]

/-- A message is a function of the slice and the cursor: `beginDecode` has emptied what was there before. -/
theorem reported_messageState_congr (v : Variant) (length : Byte) {s s' : State} (h : SameFrameOperands s s') :
    reported (.next (messageState v length s)) = reported (.next (messageState v length s')) := by
  have hraw : rawAtCursor s length.toNat = rawAtCursor s' length.toNat := by
    rw [rawAtCursor, rawAtCursor, h.buf, h.off]
  simp only [reported_next, messageState, writeMessage, retire_status, retire_results, beginDecode_results,
    beginDecode_operands, hraw, h.off]

theorem FrameMeaning.reported_congr {run : State → Host.Outcome State Fault Refusal} (hrun : FrameMeaning run)
    {s s' : State} (h : SameFrameOperands s s') : reported (run s) = reported (run s') := by
  cases hrun with
  | variant v p =>
    rw [runVariant_eq, runVariant_eq, h.bufLen, h.off]
    split
    · exact reported_errorState_congr s s' _ _ _
    · split
      · exact reported_errorState_congr s s' _ _ _
      · split
        · exact reported_errorState_congr s s' _ _ _
        · exact reported_messageState_congr v p.p0 h
  | illegal length eirp subnet msgId addrControl =>
    rw [execIllegalAddressControl_eq, execIllegalAddressControl_eq, h.bufLen, h.off]
    split <;> exact reported_errorState_congr s s' _ _ _

/-- Both states have a probe or neither has, and it is the same one. -/
theorem reported_exec_decodeFrame_congr {s s' : State} (h : SameFrameOperands s s') :
    reported (exec .decodeFrame s) = reported (exec .decodeFrame s') := by
  by_cases hprobe : s.operands.off + 6 ≤ s.operands.bufLen
  · have hprobe' : s'.operands.off + 6 ≤ s'.operands.bufLen := by rwa [← h.off, ← h.bufLen]
    rw [exec_decodeFrame_of_probe hprobe, exec_decodeFrame_of_probe hprobe', probeAtCursor_congr h]
    exact (frameMeaning_exec_decodeProbe _).reported_congr h
  · have hmissing : s.operands.bufLen < s.operands.off + 6 := by omega
    have hmissing' : s'.operands.bufLen < s'.operands.off + 6 := by rwa [← h.off, ← h.bufLen]
    rw [exec_decodeFrame_of_probe_missing hmissing, exec_decodeFrame_of_probe_missing hmissing']
    exact reported_errorState_congr s s' _ _ _

theorem reported_exec_congr (i : Instr) {s s' : State} (h : SameFrameOperands s s') :
    reported (exec i s) = reported (exec i s') := by
  obtain hframe | rfl | rfl | rfl | rfl := exec_frameMeaning_or_operation i
  · exact hframe.reported_congr h
  · rfl
  · exact reported_exec_decodeFrame_congr h
  · rfl
  · rfl

/-! ### No operation is pending and no working register is in use afterwards -/

theorem FrameMeaning.next_idle {run : State → Host.Outcome State Fault Refusal} (hrun : FrameMeaning run)
    {s t : State} (h : run s = .next t) : t.op = none ∧ t.working = Working.empty := by
  cases hrun with
  | variant v p =>
    obtain h | h | h | h := runVariant_cases h
    all_goals
      cases h
      exact ⟨rfl, rfl⟩
  | illegal length eirp subnet msgId addrControl =>
    rw [execIllegalAddressControl_eq] at h
    split at h
    all_goals
      cases h
      exact ⟨rfl, rfl⟩

/-- An operation that answers a next state leaves the engine idle (R148, C10). -/
theorem exec_next_idle {i : Instr} {s t : State} (h : exec i s = .next t) :
    t.op = none ∧ t.working = Working.empty := by
  obtain hframe | rfl | rfl | rfl | rfl := exec_frameMeaning_or_operation i
  · exact hframe.next_idle h
  · cases h
    exact ⟨rfl, rfl⟩
  · by_cases hprobe : s.operands.off + 6 ≤ s.operands.bufLen
    · rw [exec_decodeFrame_of_probe hprobe] at h
      exact (frameMeaning_exec_decodeProbe _).next_idle h
    · rw [exec_decodeFrame_of_probe_missing (by omega)] at h
      cases h
      exact ⟨rfl, rfl⟩
  · cases h
    exact ⟨rfl, rfl⟩
  · cases h

/-! ### The two results of the Checksum Engine -/

/-- R82: `CRCOUT` is the checksum of `DATA` from `SEED`. -/
theorem crcOut_of_exec_calculateCrc16 {s t : State} (h : exec .calculateCrc16 s = .next t) :
    t.crcOut = some (crc16 s.operands.data s.operands.seed) := by
  cases h
  rfl

/-- R87: `SELFOK` compares two constants. -/
theorem selfOk_of_exec_selfCheck {s t : State} (h : exec .selfCheck s = .next t) :
    t.selfOk = some (crc16 checkInput seedFresh == checkValue) := by
  cases h
  rfl

/-- Settles O43: each result is a function of the operands it is computed from, and both next states are idle. -/
theorem resultsDependOnTheOperandsAlone : Obligations.ResultsDependOnTheOperandsAlone := by
  intro i s s' t t' ht ht'
  obtain ⟨hop, hworking⟩ := exec_next_idle ht
  obtain ⟨hop', hworking'⟩ := exec_next_idle ht'
  refine ⟨fun hbuf hbufLen hoff => ?_, ?_, ?_, hop.trans hop'.symm, hworking.trans hworking'.symm⟩
  · have hreported := reported_exec_congr i ⟨hbuf, hbufLen, hoff⟩
    rw [ht, ht'] at hreported
    simpa using hreported
  · rintro rfl hdata hseed
    rw [crcOut_of_exec_calculateCrc16 ht, crcOut_of_exec_calculateCrc16 ht', hdata, hseed]
  · rintro rfl
    rw [selfOk_of_exec_selfCheck ht, selfOk_of_exec_selfCheck ht']

end Sys2Proof.Machine
end

section
/-! SUPPORT. The discriminant map of spec/30_encoding.md R58, tied to the dispatcher's comparisons: every probe falls in exactly
one row. -/

namespace Sys2Proof

/-- The row of the discriminant map (R58) that selects `sel`, as a condition on bytes 3 and 5 alone, without the order in which
the dispatcher compares them. -/
def Selection.row (sel : Selection) (p : Probe) : Prop :=
  match sel with
  | .variant .shortBroadcast => p.p3 = 0x04#8
  | .variant .directed => p.p3 = 0x20#8
  | .variant .shortDirected => p.p3 = 0x05#8
  | .variant .beacon => p.p3 = 0x22#8 ∧ p.p5 = 0x40#8
  | .variant .broadcast => p.p3 = 0x22#8 ∧ p.p5 = 0x41#8
  | .illegalAddressControl => p.p3 = 0x22#8 ∧ p.p5 ≠ 0x40#8 ∧ p.p5 ≠ 0x41#8
  | .variant .unknown => p.p3 ≠ 0x04#8 ∧ p.p3 ≠ 0x05#8 ∧ p.p3 ≠ 0x20#8 ∧ p.p3 ≠ 0x22#8

/-- Every probe is in the row it selects, so some row always applies. -/
theorem row_select (p : Probe) : (select p).row p := by
  unfold select
  split_ifs with h04 h20 h05 h22 h40 h41
  · exact h04
  · exact h20
  · exact h05
  · exact ⟨h22, h40⟩
  · exact ⟨h22, h41⟩
  · exact ⟨h22, h40, h41⟩
  · exact ⟨h04, h05, h20, h22⟩

/-- A row that applies is the selected one: no earlier comparison of the dispatcher (R102 to R104) takes its probes. -/
theorem select_of_row {sel : Selection} {p : Probe} (h : sel.row p) : select p = sel := by
  match sel, h with
  | .variant .shortBroadcast, (h3 : p.p3 = 0x04#8) => simp [select, h3]
  | .variant .directed, (h3 : p.p3 = 0x20#8) => simp [select, h3]
  | .variant .shortDirected, (h3 : p.p3 = 0x05#8) => simp [select, h3]
  | .variant .beacon, ⟨h3, h5⟩ => simp [select, h3, h5]
  | .variant .broadcast, ⟨h3, h5⟩ => simp [select, h3, h5]
  | .illegalAddressControl, ⟨h3, h40, h41⟩ => simp [select, h3, h40, h41]
  | .variant .unknown, ⟨h04, h05, h20, h22⟩ => simp [select, h04, h05, h20, h22]

/-- Every probe falls in exactly one row of the map, the one of its selection (R58). -/
theorem select_eq_iff_row (p : Probe) (sel : Selection) : select p = sel ↔ sel.row p :=
  ⟨fun h => h ▸ row_select p, select_of_row⟩

/-- Settles O4: its seven rows are those of `Selection.row`. -/
theorem discriminantBytesSelectTheVariant : Obligations.DiscriminantBytesSelectTheVariant := fun p =>
  ⟨select_eq_iff_row p _, select_eq_iff_row p _, select_eq_iff_row p _, select_eq_iff_row p _, select_eq_iff_row p _,
    select_eq_iff_row p _, select_eq_iff_row p _⟩

end Sys2Proof
end

section
/-! SUPPORT. The five steps of `crc_step` (spec/40_checksum.md R80) on naturals: each is the source's own expression, with the
mask `& 0xFFFF` written out where the model has the width of the word (R89). -/

namespace Sys2Proof.Machine

/-- A left shift of a word drops exactly the bits the source masks off. -/
theorem toNat_shiftLeft_eq_mask (c : Word16) (n : Nat) : (c <<< n).toNat = (c.toNat <<< n) &&& 0xFFFF :=
  calc (c <<< n).toNat
    _ = (c.toNat <<< n) % 2 ^ 16 := BitVec.toNat_shiftLeft
    _ = (c.toNat <<< n) &&& 0xFFFF := (Nat.and_two_pow_sub_one_eq_mod _ 16).symm

/-- In step 1 the source masks the whole rotation; only the byte shifted up has anything to lose. -/
theorem crcSwap_toNat (c : Word16) :
    (crcSwap c).toNat = (((c.toNat >>> 8) &&& 0xFF) ||| (c.toNat <<< 8)) &&& 0xFFFF := by
  have hlow : (c.toNat >>> 8) &&& 0xFF &&& 0xFFFF = (c.toNat >>> 8) &&& 0xFF := Nat.and_assoc _ _ _
  calc (crcSwap c).toNat
    _ = ((c.toNat >>> 8) &&& 0xFF) ||| (c <<< 8).toNat := rfl
    _ = ((c.toNat >>> 8) &&& 0xFF) ||| ((c.toNat <<< 8) &&& 0xFFFF) := by rw [toNat_shiftLeft_eq_mask]
    _ = (((c.toNat >>> 8) &&& 0xFF) ||| (c.toNat <<< 8)) &&& 0xFFFF := by rw [Nat.and_or_distrib_right, hlow]

theorem crcMix_toNat (b : Byte) (c : Word16) : (crcMix b c).toNat = c.toNat ^^^ b.toNat := by
  rw [crcMix, BitVec.toNat_xor, BitVec.toNat_setWidth_of_le (by decide)]

theorem crcFold4_toNat (c : Word16) : (crcFold4 c).toNat = c.toNat ^^^ ((c.toNat &&& 0xFF) >>> 4) := rfl

theorem crcFold12_toNat (c : Word16) : (crcFold12 c).toNat = c.toNat ^^^ ((c.toNat <<< 12) &&& 0xFFFF) := by
  rw [crcFold12, BitVec.toNat_xor, toNat_shiftLeft_eq_mask]

theorem crcFold5_toNat (c : Word16) :
    (crcFold5 c).toNat = c.toNat ^^^ (((c.toNat &&& 0xFF) <<< 5) &&& 0xFFFF) := by
  rw [crcFold5, BitVec.toNat_xor, toNat_shiftLeft_eq_mask, BitVec.toNat_and]
  rfl

/-- Settles O9: the five steps on naturals one after another, and R80's corner cases and worked example by evaluation. -/
theorem crcStepIsTheFiveMaskedSteps : Obligations.CrcStepIsTheFiveMaskedSteps := by
  refine ⟨fun c b => ?_, by decide, by decide, by decide, by decide, by decide⟩
  rw [crcStep, crcFold5_toNat, crcFold12_toNat, crcFold4_toNat, crcMix_toNat, crcSwap_toNat]

end Sys2Proof.Machine
end

section
/-! SUPPORT. `decodeFrame` by its selection (spec/41_dispatch.md R102 to R105): the steps of the selected variant, or the decode
error of R141; and from there the length check, whole. -/

namespace Sys2Proof.Machine

/-- A frame instruction looks at its probe for the declared length alone; every other byte it reads in the slice (R106). -/
theorem runVariant_congr_length (v : Variant) {p p' : Probe} (h : p.p0 = p'.p0) (s : State) :
    runVariant v p s = runVariant v p' s := by
  rw [runVariant_eq, runVariant_eq, h]

@[simp] theorem probeAtCursor_p0 (s : State) : (probeAtCursor s).p0 = byteAtCursor s 0 := rfl

/-- The instruction of a probe that selects a variant runs that variant's steps. -/
theorem exec_decodeProbe_of_variant {p : Probe} {v : Variant} (hsel : select p = .variant v) (s : State) :
    exec (decodeProbe p) s = runVariant v p s := by
  unfold decodeProbe
  rw [hsel]
  cases v <;> exact runVariant_congr_length _ rfl s

/-- `decodeFrame` where the probe selects a variant (R102, R104): steps 3 to 5 of that variant. -/
theorem exec_decodeFrame_of_variant {s : State} {v : Variant} (hprobe : s.operands.off + 6 ≤ s.operands.bufLen)
    (hsel : select (probeAtCursor s) = .variant v) :
    exec .decodeFrame s = runVariant v (probeAtCursor s) s := by
  rw [exec_decodeFrame_of_probe hprobe, exec_decodeProbe_of_variant hsel]

/-- `decodeFrame` where the sub-dispatch on the address-control byte selects nothing (R103, R141). -/
theorem exec_decodeFrame_of_illegalAddressControl {s : State} (hprobe : s.operands.off + 6 ≤ s.operands.bufLen)
    (hsel : select (probeAtCursor s) = .illegalAddressControl) :
    exec .decodeFrame s = .next (errorState s .illegalAddressControl (some (byteAtCursor s 5)) none) := by
  rw [exec_decodeFrame_of_probe hprobe, decodeProbe, hsel]
  exact (execIllegalAddressControl_eq _ _ _ _ _ s).trans (if_neg (by omega))

/-- A declared length below the selected variant's minimum ends the operation at the length check, before the slice's bounds are
looked at (R105, R147). -/
theorem exec_decodeFrame_of_short {s : State} {v : Variant} (hprobe : s.operands.off + 6 ≤ s.operands.bufLen)
    (hsel : select (probeAtCursor s) = .variant v) (hshort : (byteAtCursor s 0).toNat < minSize v) :
    exec .decodeFrame s = .next
      (errorState s .truncatedFrame (some (byteAtCursor s 0)) (some (BitVec.ofNat 8 (minSize v)))) := by
  rw [exec_decodeFrame_of_variant hprobe hsel, runVariant_eq, probeAtCursor_p0, if_neg (by omega), if_pos hshort]

/-- No outcome but that of the length check has the status `TruncatedFrame`. -/
theorem truncated_of_exec_decodeFrame {s t : State} (hprobe : s.operands.off + 6 ≤ s.operands.bufLen)
    (h : exec .decodeFrame s = .next t) (hstatus : t.status = .truncatedFrame) :
    ∃ v, select (probeAtCursor s) = .variant v ∧ (byteAtCursor s 0).toNat < minSize v := by
  cases hsel : select (probeAtCursor s) with
  | illegalAddressControl =>
    rw [exec_decodeFrame_of_illegalAddressControl hprobe hsel] at h
    cases h
    cases hstatus
  | variant v =>
    refine ⟨v, rfl, not_le.mp fun hlong => ?_⟩
    rw [exec_decodeFrame_of_variant hprobe hsel, runVariant_eq, probeAtCursor_p0, if_neg (by omega),
      if_neg (not_lt.mpr hlong)] at h
    split at h
    all_goals
      cases h
      cases hstatus

/-- Every minimum size fits the byte of `ERR1`. -/
theorem toNat_ofNat_minSize (v : Variant) : (BitVec.ofNat 8 (minSize v)).toNat = minSize v := by
  cases v <;> rfl

/-- Settles O33: the length check is the only source of the status, and what it leaves is `errorState` with both numbers. -/
theorem truncatedFrameExactlyWhenTooShort : Obligations.TruncatedFrameExactlyWhenTooShort := by
  intro s t hprobe h
  have hleft : ∀ v, select (probeAtCursor s) = .variant v → (byteAtCursor s 0).toNat < minSize v →
      t = errorState s .truncatedFrame (some (byteAtCursor s 0)) (some (BitVec.ofNat 8 (minSize v))) :=
    fun v hsel hshort => Host.Outcome.next.inj (h.symm.trans (exec_decodeFrame_of_short hprobe hsel hshort))
  refine ⟨⟨truncated_of_exec_decodeFrame hprobe h, ?_⟩, fun hstatus => ?_⟩
  · rintro ⟨v, hsel, hshort⟩
    rw [hleft v hsel hshort]
    rfl
  · obtain ⟨v, hsel, hshort⟩ := truncated_of_exec_decodeFrame hprobe h hstatus
    rw [hleft v hsel hshort]
    exact ⟨rfl, v, hsel, rfl, congrArg some (toNat_ofNat_minSize v)⟩

end Sys2Proof.Machine
end

section
/-! SUPPORT. The decode error of the address-control byte (spec/60_exceptions.md R141): `decodeFrame` raises it exactly where the
selection gives no variant, because no frame of a variant can end in it. -/

namespace Sys2Proof.Machine

/-- The steps of a variant (R105 to R110) come after the selection, so the error of the selection is not among their ends. -/
theorem status_ne_illegalAddressControl_of_runVariant {v : Variant} {p : Probe} {s t : State}
    (h : runVariant v p s = .next t) : t.status ≠ .illegalAddressControl := by
  obtain h | h | h | h := runVariant_cases h
  all_goals
    cases h
    nofun

/-- The status names the failed selection, and only that. -/
theorem status_illegalAddressControl_iff_select {s t : State} (hprobe : s.operands.off + 6 ≤ s.operands.bufLen)
    (h : exec .decodeFrame s = .next t) :
    t.status = .illegalAddressControl ↔ select (probeAtCursor s) = .illegalAddressControl := by
  cases hsel : select (probeAtCursor s) with
  | illegalAddressControl =>
    rw [exec_decodeFrame_of_illegalAddressControl hprobe hsel] at h
    cases h
    exact iff_of_true rfl rfl
  | variant v =>
    rw [exec_decodeFrame_of_variant hprobe hsel] at h
    exact iff_of_false (status_ne_illegalAddressControl_of_runVariant h) nofun

/-- Settles O32: the status stands for the failed selection, the selection for its row of the discriminant map (R58), and what the
error leaves is `errorState` with byte 5. -/
theorem illegalAddressControlOnlyInItsFamily : Obligations.IllegalAddressControlOnlyInItsFamily := by
  intro s t hprobe h
  have hselect := status_illegalAddressControl_iff_select hprobe h
  refine ⟨hselect.trans (select_eq_iff_row _ .illegalAddressControl), fun hstatus => ?_⟩
  rw [exec_decodeFrame_of_illegalAddressControl hprobe (hselect.mp hstatus)] at h
  cases h
  exact ⟨rfl, rfl⟩

end Sys2Proof.Machine
end

section
/-! SUPPORT. Decoding and encoding are inverse to each other (spec/30_encoding.md R58, R66, R67), and the opcode
table's masks select what the dispatcher's comparisons select. -/

namespace Sys2Proof

open Sys2Proof.Laws.MatchesRow

/-! ### Decoding against encoding -/

/-- Settles O1: where the row fixes its discriminants the dispatcher's comparisons evaluate; in the other two rows being
well-formed is the row's condition. -/
theorem encodedInstructionDecodesToItself : Obligations.EncodedInstructionDecodesToItself := by
  intro i hi
  cases i with
  | shortBroadcast | directed | shortDirected | beacon | broadcast => rfl
  | calculateCrc16 | decodeFrame | selfCheck | unassigned => rfl
  | illegalAddressControl length eirp subnet msgId addrControl =>
    have hrow : Selection.illegalAddressControl.row ⟨length, eirp, subnet, 0x22#8, msgId, addrControl⟩ := by
      simpa [Selection.row, Instr.wellFormed] using hi
    simp only [encode, decode, decodeProbe, select_of_row hrow]
  | unknown length eirp byte2 frameControl byte4 byte5 =>
    have hrow : (Selection.variant .unknown).row ⟨length, eirp, byte2, frameControl, byte4, byte5⟩ := by
      simpa [Selection.row, Instr.wellFormed, and_assoc] using hi
    simp only [encode, decode, decodeProbe, select_of_row hrow]

/-- A probe's instruction is well-formed and has kept all six bytes: the row gives back the ones it does not carry. -/
theorem encode_decodeProbe (p : Probe) : (decodeProbe p).wellFormed = true ∧ encode (decodeProbe p) = .frame p := by
  obtain ⟨p0, p1, p2, p3, p4, p5⟩ := p
  have hrow := row_select ⟨p0, p1, p2, p3, p4, p5⟩
  unfold decodeProbe
  cases hsel : select ⟨p0, p1, p2, p3, p4, p5⟩ with
  | illegalAddressControl =>
    rw [hsel] at hrow
    obtain ⟨rfl, h40, h41⟩ := hrow
    simp [Instr.wellFormed, encode, h40, h41]
  | variant v =>
    rw [hsel] at hrow
    cases v with
    | unknown =>
      obtain ⟨h04, h05, h20, h22⟩ := hrow
      simp [Instr.wellFormed, encode, h04, h05, h20, h22]
    | beacon | broadcast =>
      obtain ⟨rfl, rfl⟩ := hrow
      exact ⟨rfl, rfl⟩
    | shortBroadcast | directed | shortDirected =>
      cases hrow
      exact ⟨rfl, rfl⟩

theorem encode_decodeOp (code : BitVec 2) :
    (decodeOp code).wellFormed = true ∧ encode (decodeOp code) = .op code := by
  revert code
  decide

/-- Settles O2, for each of the two kinds of code. -/
theorem everyCodeDecodesAndEncodesBack : Obligations.EveryCodeDecodesAndEncodesBack
  | .op code => encode_decodeOp code
  | .frame p => encode_decodeProbe p

/-! ### The opcode table -/

/-- Appending a byte shifts the value up by one digit of base 256. -/
theorem toNat_append_byte {w : Nat} (x : BitVec w) (b : Byte) : (x ++ b).toNat = x.toNat * 256 + b.toNat := by
  rw [BitVec.toNat_append, ← Nat.shiftLeft_add_eq_or_of_lt b.isLt, Nat.shiftLeft_eq]

/-- The probe word is the big-endian value of the probe's bytes (R66). -/
theorem packProbe_toNat (p : Probe) : (packProbe p).toNat = Machine.be p.bytes := by
  simp only [packProbe, Probe.bytes, Machine.be, List.foldl, toNat_append_byte]
  omega

theorem unpackProbe_packProbe (p : Probe) : unpackProbe (packProbe p) = p := by
  obtain ⟨p0, p1, p2, p3, p4, p5⟩ := p
  simp only [unpackProbe, probeByteOf, Probe.mk.injEq]
  refine ⟨?_, ?_, ?_, ?_, ?_, ?_⟩
  all_goals
    apply BitVec.eq_of_toNat_eq
    simp only [BitVec.toNat_setWidth, BitVec.toNat_ushiftRight, packProbe_toNat, Nat.shiftRight_eq_div_pow,
      Machine.be, Probe.bytes, List.foldl]
    omega

/-- Two bytes at different places of a probe word can be told apart. -/
theorem byte_shiftLeft_or_byte_inj {a b c d : Byte}
    (h : a.setWidth 48 <<< 16 ||| b.setWidth 48 = c.setWidth 48 <<< 16 ||| d.setWidth 48) : a = c ∧ b = d := by
  have hbit (i : Nat) : (a.setWidth 48 <<< 16 ||| b.setWidth 48).getLsbD i =
      (c.setWidth 48 <<< 16 ||| d.setWidth 48).getLsbD i := by rw [h]
  refine ⟨BitVec.eq_of_getLsbD_eq fun i hi => ?_, BitVec.eq_of_getLsbD_eq fun i hi => ?_⟩
  · simpa [BitVec.getLsbD_of_ge _ (16 + i) (show 8 ≤ 16 + i by omega), show 16 + i < 48 by omega] using hbit (16 + i)
  · simpa [show i < 16 by omega, show i < 48 by omega] using hbit i

/-- A row that fixes byte 3 matches the probes with that byte. -/
theorem frameControlRow_matches (p : Probe) (v : Byte) :
    (packProbe p &&& 0x000000FF0000#48 == v.setWidth 48 <<< 16) = decide (p.p3 = v) := by
  rw [packProbe_mask_p3, beq_eq_decide, decide_eq_decide]
  exact ⟨fun h => (byte_shiftLeft_or_byte_inj (b := 0#8) (d := 0#8) (by rw [h])).1, fun h => by rw [h]⟩

/-- A row that fixes bytes 3 and 5 matches the probes with those two bytes. -/
theorem discriminantsRow_matches (p : Probe) (v w : Byte) :
    (packProbe p &&& 0x000000FF00FF#48 == (v.setWidth 48 <<< 16 ||| w.setWidth 48)) =
    decide (p.p3 = v ∧ p.p5 = w) := by
  rw [packProbe_mask_p3_p5, beq_eq_decide, decide_eq_decide]
  exact ⟨byte_shiftLeft_or_byte_inj, fun ⟨h3, h5⟩ => by rw [h3, h5]⟩

/-- Seen through the masks, the rows in rising priority are the dispatcher's comparisons in its own order. -/
theorem tableSelect_packProbe (p : Probe) : tableSelect (packProbe p) = some (select p) := by
  have h04 : (_ == 0x000000040000#48) = _ := frameControlRow_matches p 0x04#8
  have h20 : (_ == 0x000000200000#48) = _ := frameControlRow_matches p 0x20#8
  have h05 : (_ == 0x000000050000#48) = _ := frameControlRow_matches p 0x05#8
  have h22 : (_ == 0x000000220000#48) = _ := frameControlRow_matches p 0x22#8
  have h40 : (_ == 0x000000220040#48) = _ := discriminantsRow_matches p 0x22#8 0x40#8
  have h41 : (_ == 0x000000220041#48) = _ := discriminantsRow_matches p 0x22#8 0x41#8
  simp only [tableSelect, frameRows, List.find?, FrameRow.matchesWord, h04, h20, h05, h22, h40, h41]
  unfold select
  split_ifs <;> simp [*]

/-- Settles O3: the masks see bytes 3 and 5, and the probe word keeps all six. -/
theorem opcodeTableRowsAgreeWithDispatcher : Obligations.OpcodeTableRowsAgreeWithDispatcher := fun p =>
  ⟨tableSelect_packProbe p, unpackProbe_packProbe p⟩

/-- Settles O5, each word by evaluation. -/
theorem sampleTableWordsDecode : Obligations.SampleTableWordsDecode := by
  unfold Obligations.SampleTableWordsDecode
  decide

end Sys2Proof
end

section
/-! SUPPORT. What a step runs: the operation on the host's port, and through it the frame at the cursor
(spec/30_encoding.md R67, spec/41_dispatch.md R100). -/

namespace Sys2Proof.Machine

theorem step_of_idle {s : State} (h : s.op = none) : step s = .next s := by
  rw [step, h]

theorem step_of_issued {s : State} {code : BitVec 2} (h : s.op = some code) : step s = exec (decodeOp code) s := by
  rw [step, h]

/-- Settles O6: the two branches of the step. -/
theorem stepRunsTheIssuedOperation : Obligations.StepRunsTheIssuedOperation := fun _ =>
  ⟨step_of_idle, fun _ => step_of_issued⟩

/-- The six bytes at the cursor are the bytes of the probe there, with nothing left over. -/
theorem decodeBytes_readMany_cursor (s : State) :
    decodeBytes (Memory.readMany s.operands.buf s.operands.off 6) = .ok (decodeProbe (probeAtCursor s), []) := rfl

/-- Settles O7: the issued `decodeFrame` has its probe, and runs the instruction the same six bytes decode to. -/
theorem stepRunsTheFrameAtTheCursor : Obligations.StepRunsTheFrameAtTheCursor := by
  intro s bytes i hop hbytes hi
  have hprobe : s.operands.off + 6 ≤ s.operands.bufLen := by
    by_contra hmissing
    rw [memBytes_none (by omega)] at hbytes
    cases hbytes
  rw [memBytes_some hprobe] at hbytes
  cases hbytes
  rw [decodeBytes_readMany_cursor] at hi
  cases hi
  exact ⟨(encode_decodeProbe _).1, (step_of_issued hop).trans (exec_decodeFrame_of_probe hprobe)⟩

theorem exec_unassigned (s : State) : exec .unassigned s = .refused .operationNotAssigned := rfl

/-- Settles O8: a step with code 3 issued is the refusal of the unassigned row. -/
theorem operationCodesSelectTheOperations : Obligations.OperationCodesSelectTheOperations :=
  ⟨rfl, rfl, rfl, rfl, exec_unassigned, fun s h => (step_of_issued h).trans (exec_unassigned s)⟩

end Sys2Proof.Machine
end

section
/-! SUPPORT. The algebra of `crc_step` (spec/40_checksum.md sections 1 and 3): what each of its five steps does to a
bit, that each is linear over exclusive-or, and that a linear function of the accumulator is settled by its values on
the sixteen single bits. -/

namespace Sys2Proof.Machine

/-! ### The five steps, bit by bit (R81) -/

theorem lowByteMask_getLsbD (i : Nat) : (0xFF#16).getLsbD i = decide (i < 8) := by
  rw [show 0xFF#16 = (BitVec.allOnes 8).setWidth 16 from rfl, BitVec.getLsbD_setWidth, BitVec.getLsbD_allOnes]
  by_cases h : i < 8
  · simp [h, show i < 16 by omega]
  · simp [h]

theorem crcSwap_getLsbD (c : Word16) {i : Nat} (hi : i < 16) :
    (crcSwap c).getLsbD i = if i < 8 then c.getLsbD (8 + i) else c.getLsbD (i - 8) := by
  by_cases h : i < 8 <;> simp [crcSwap, lowByteMask_getLsbD, hi, h, -BitVec.getLsbD_eq_getElem]

theorem crcMix_getLsbD (b : Byte) (c : Word16) {i : Nat} (hi : i < 16) :
    (crcMix b c).getLsbD i = xor (c.getLsbD i) (b.getLsbD i) := by
  simp [crcMix, hi]

theorem crcFold4_getLsbD (c : Word16) (i : Nat) :
    (crcFold4 c).getLsbD i = xor (c.getLsbD i) (decide (i < 4) && c.getLsbD (4 + i)) := by
  simp [crcFold4, lowByteMask_getLsbD, Bool.and_comm, show 4 + i < 8 ↔ i < 4 by omega]

theorem crcFold12_getLsbD (c : Word16) {i : Nat} (hi : i < 16) :
    (crcFold12 c).getLsbD i = xor (c.getLsbD i) (!decide (i < 12) && c.getLsbD (i - 12)) := by
  simp [crcFold12, hi, -BitVec.getLsbD_eq_getElem]

theorem crcFold5_getLsbD (c : Word16) {i : Nat} (hi : i < 16) :
    (crcFold5 c).getLsbD i = xor (c.getLsbD i) (!decide (i < 5) && (c.getLsbD (i - 5) && decide (i - 5 < 8))) := by
  simp [crcFold5, lowByteMask_getLsbD, hi, -BitVec.getLsbD_eq_getElem]

/-! ### Linearity -/

/-- A function of the accumulator that respects exclusive-or. -/
def XorLinear (f : Word16 → Word16) : Prop := ∀ c c' : Word16, f (c ^^^ c') = f c ^^^ f c'

theorem XorLinear.map_zero {f : Word16 → Word16} (hf : XorLinear f) : f 0#16 = 0#16 :=
  calc f 0#16
    _ = f (0#16 ^^^ 0#16) := by rw [BitVec.xor_self]
    _ = 0#16 := by rw [hf, BitVec.xor_self]

theorem XorLinear.iterate {f : Word16 → Word16} (hf : XorLinear f) (n : Nat) : XorLinear f^[n] := by
  induction n with
  | zero => exact fun _ _ => rfl
  | succ n ih =>
    intro c c'
    simp only [Function.iterate_succ, Function.comp_apply, hf c c', ih (f c)]

/-- One more bit of an accumulator, from the low end. -/
theorem lowBits_succ (c : Word16) (n : Nat) :
    (c.setWidth (n + 1)).setWidth 16 =
      (c.setWidth n).setWidth 16 ^^^ if c.getLsbD n then BitVec.twoPow 16 n else 0#16 := by
  refine BitVec.eq_of_getLsbD_eq fun i hi => ?_
  obtain h | rfl | h := Nat.lt_trichotomy i n
  · cases c.getLsbD n <;> simp [hi, h, h.ne, Nat.lt_succ_of_lt h]
  · cases hc : c.getLsbD i <;> simp [hi, hc, -BitVec.getLsbD_eq_getElem]
  · cases c.getLsbD n <;> simp [hi, h.ne', show ¬ i < n + 1 by omega, show ¬ i < n by omega]

/-- The sixteen single bits settle a linear function. -/
theorem XorLinear.eq_of_eq_on_bits {f g : Word16 → Word16} (hf : XorLinear f) (hg : XorLinear g)
    (hbits : ∀ i < 16, f (BitVec.twoPow 16 i) = g (BitVec.twoPow 16 i)) : f = g := by
  have hlow : ∀ n ≤ 16, ∀ c : Word16, f ((c.setWidth n).setWidth 16) = g ((c.setWidth n).setWidth 16) := by
    intro n hn c
    induction n with
    | zero => rw [BitVec.of_length_zero (x := c.setWidth 0), BitVec.setWidth_zero, hf.map_zero, hg.map_zero]
    | succ n ih =>
      rw [lowBits_succ, hf, hg, ih (by omega)]
      split
      · rw [hbits n (by omega)]
      · rw [hf.map_zero, hg.map_zero]
  funext c
  simpa using hlow 16 le_rfl c

theorem xor_and_distrib (c c' m : Word16) : (c ^^^ c') &&& m = (c &&& m) ^^^ (c' &&& m) :=
  BitVec.eq_of_getLsbD_eq fun i _ => by simp only [BitVec.getLsbD_and, BitVec.getLsbD_xor, Bool.and_xor_distrib_right]

theorem crcSwap_xor : XorLinear crcSwap := by
  intro c c'
  refine BitVec.eq_of_getLsbD_eq fun i hi => ?_
  simp only [BitVec.getLsbD_xor, crcSwap_getLsbD _ hi]
  split <;> rfl

theorem crcMix_xor (b b' : Byte) (c c' : Word16) : crcMix (b ^^^ b') (c ^^^ c') = crcMix b c ^^^ crcMix b' c' := by
  simp only [crcMix, BitVec.setWidth_xor]
  ac_rfl

theorem crcFold4_xor : XorLinear crcFold4 := by
  intro c c'
  simp only [crcFold4, xor_and_distrib, BitVec.ushiftRight_xor_distrib]
  ac_rfl

theorem crcFold12_xor : XorLinear crcFold12 := by
  intro c c'
  simp only [crcFold12, BitVec.shiftLeft_xor_distrib]
  ac_rfl

theorem crcFold5_xor : XorLinear crcFold5 := by
  intro c c'
  simp only [crcFold5, xor_and_distrib, BitVec.shiftLeft_xor_distrib]
  ac_rfl

theorem crcStep_xor (c c' : Word16) (b b' : Byte) : crcStep (c ^^^ c') (b ^^^ b') = crcStep c b ^^^ crcStep c' b' := by
  rw [crcStep, crcSwap_xor, crcMix_xor, crcFold4_xor, crcFold12_xor, crcFold5_xor]
  rfl

theorem crcStep_zero_byte_xor : XorLinear fun c => crcStep c 0#8 := fun c c' => crcStep_xor c c' 0#8 0#8

/-- Settles O10: the result bits from those of the five steps, and the linearity from theirs. -/
theorem crcStepIsTheXorNetwork : Obligations.CrcStepIsTheXorNetwork := by
  refine ⟨fun c b => ?_, crcStep_xor⟩
  simp [crcStep, crcFold5_getLsbD, crcFold12_getLsbD, crcFold4_getLsbD, crcMix_getLsbD, crcSwap_getLsbD,
    -BitVec.getLsbD_eq_getElem]

/-! ### Polynomial division (R88) -/

/-- One round of the division: shift left, and subtract the polynomial when a bit falls out. -/
def divisionRound (r : Word16) : Word16 := if r.getLsbD 15 then (r <<< 1) ^^^ 0x1021#16 else r <<< 1

theorem divisionRound_eq (r : Word16) :
    divisionRound r = (r <<< 1) ^^^ if r.getLsbD 15 then 0x1021#16 else 0#16 := by
  unfold divisionRound
  split
  · rfl
  · rw [BitVec.xor_zero]

theorem divisionRound_xor : XorLinear divisionRound := by
  intro c c'
  have hpoly : (if xor (c.getLsbD 15) (c'.getLsbD 15) then 0x1021#16 else 0#16) =
      (if c.getLsbD 15 then 0x1021#16 else 0#16) ^^^ if c'.getLsbD 15 then 0x1021#16 else 0#16 := by
    cases c.getLsbD 15 <;> cases c'.getLsbD 15 <;> rfl
  simp only [divisionRound_eq, BitVec.getLsbD_xor, BitVec.shiftLeft_xor_distrib, hpoly]
  ac_rfl

/-- A round loses nothing: the bit that falls out comes back as bit 0 of the polynomial. -/
theorem divisionRound_injective : Function.Injective divisionRound := by
  have htop (r : Word16) : (divisionRound r).getLsbD 0 = r.getLsbD 15 := by
    rw [divisionRound_eq]
    cases r.getLsbD 15 <;> simp
  intro r r' h
  have h15 : r.getLsbD 15 = r'.getLsbD 15 := by rw [← htop, ← htop, h]
  rw [divisionRound_eq, divisionRound_eq, h15, BitVec.xor_left_inj] at h
  refine BitVec.eq_of_getLsbD_eq fun i hi => ?_
  obtain rfl | hlt : i = 15 ∨ i + 1 < 16 := by omega
  · exact h15
  · simpa [hlt, hi] using congrArg (BitVec.getLsbD · (i + 1)) h

/-- With no byte, `crc_step` is eight rounds: both are linear, so the sixteen single bits decide it. -/
theorem crcStep_zero_byte : (fun c => crcStep c 0#8) = divisionRound^[8] :=
  crcStep_zero_byte_xor.eq_of_eq_on_bits (divisionRound_xor.iterate 8) (by decide)

/-- The rotation brings the high byte of the accumulator to where the byte is mixed in, so mixing in a byte cancels it
there. -/
theorem crcStep_high_byte (b : Byte) : crcStep (b.setWidth 16 <<< 8) b = 0#16 := by
  have hmix : crcMix b (crcSwap (b.setWidth 16 <<< 8)) = 0#16 := by
    refine BitVec.eq_of_getLsbD_eq fun i hi => ?_
    rw [crcMix_getLsbD _ _ hi, crcSwap_getLsbD _ hi]
    by_cases h : i < 8
    · simp [h, hi, show 8 + i < 16 by omega]
    · simp [h, hi, show i - 8 < 8 by omega, BitVec.getLsbD_of_ge b i (by omega)]
  rw [crcStep, hmix]
  decide

theorem crcStep_eq_divisionRounds (c : Word16) (b : Byte) :
    crcStep c b = divisionRound^[8] (c ^^^ (b.setWidth 16 <<< 8)) := by
  have hcancel : crcStep (c ^^^ (b.setWidth 16 <<< 8)) (b ^^^ b) = crcStep c b := by
    rw [crcStep_xor, crcStep_high_byte, BitVec.xor_zero]
  rw [← hcancel, BitVec.xor_self, ← crcStep_zero_byte]

/-- Settles O11: the obligation writes out `divisionRound`. -/
theorem crcStepIsPolynomialDivision : Obligations.CrcStepIsPolynomialDivision := crcStep_eq_divisionRounds

end Sys2Proof.Machine
end

section
/-! SUPPORT. The laws of the checksum (spec/40_checksum.md R82 to R88), from the recursion of `crc16` and the algebra
of its step, and the two operations of the Checksum Engine. -/

namespace Sys2Proof.Machine

/-! ### `crc_step` loses nothing (R86, laws 1 and 2) -/

theorem byte_shiftLeft_injective : Function.Injective fun b : Byte => b.setWidth 16 <<< 8 := by
  intro b b' h
  refine BitVec.eq_of_getLsbD_eq fun i hi => ?_
  simpa [show 8 + i < 16 by omega, show i < 16 by omega] using congrArg (BitVec.getLsbD · (8 + i)) h

theorem crcStep_injective (b : Byte) : Function.Injective fun c : Word16 => crcStep c b := by
  intro c c' h
  simp only [crcStep_eq_divisionRounds] at h
  exact (BitVec.xor_left_inj _).mp (divisionRound_injective.iterate 8 h)

theorem crcStep_byte_injective (c : Word16) : Function.Injective fun b : Byte => crcStep c b := by
  intro b b' h
  simp only [crcStep_eq_divisionRounds] at h
  exact byte_shiftLeft_injective ((BitVec.xor_right_inj _).mp (divisionRound_injective.iterate 8 h))

/-- Settles O12: on finitely many accumulators an injection is a bijection. -/
theorem crcStepIsInvertible : Obligations.CrcStepIsInvertible :=
  ⟨fun b => Finite.injective_iff_bijective.mp (crcStep_injective b), crcStep_byte_injective⟩

/-! ### Sequences -/

theorem crc16_append (d1 d2 : List Byte) (seed : Word16) : crc16 (d1 ++ d2) seed = crc16 d2 (crc16 d1 seed) :=
  List.foldl_append

/-- Settles O16: `crc16` is a left fold. -/
theorem crcIsComputedInPieces : Obligations.CrcIsComputedInPieces :=
  ⟨crc16_nil, fun data b seed => crc16_append data [b] seed, crc16_append⟩

theorem crc16_injective (data : List Byte) : Function.Injective (crc16 data) := by
  induction data with
  | nil => exact fun _ _ h => h
  | cons b data ih => exact ih.comp (crcStep_injective b)

/-- Settles O13: the two steps at the differing byte have different results, and no later byte can bring them
together. -/
theorem crcDetectsOneChangedByte : Obligations.CrcDetectsOneChangedByte := by
  intro before after b b' seed hne heq
  rw [crc16_append, crc16_append, crc16_cons, crc16_cons] at heq
  exact hne (crcStep_byte_injective _ (crc16_injective after heq))

/-! ### The residue (R86, law 4) -/

/-- The three folds have nothing to do on a word whose low byte is zero. -/
theorem crcFolds_high_byte (b : Byte) :
    crcFold5 (crcFold12 (crcFold4 (b.setWidth 16 <<< 8))) = b.setWidth 16 <<< 8 := by
  have hlow : (b.setWidth 16 <<< 8) &&& 0xFF#16 = 0#16 := by
    refine BitVec.eq_of_getLsbD_eq fun i hi => ?_
    by_cases h : i < 8 <;> simp [lowByteMask_getLsbD, h, -BitVec.getLsbD_eq_getElem]
  have hhigh : b.setWidth 16 <<< 8 <<< 12 = 0#16 := by
    rw [← BitVec.shiftLeft_add, BitVec.shiftLeft_eq_zero (by omega)]
  have h4 : crcFold4 (b.setWidth 16 <<< 8) = b.setWidth 16 <<< 8 := by simp [crcFold4, hlow]
  have h12 : crcFold12 (b.setWidth 16 <<< 8) = b.setWidth 16 <<< 8 := by simp [crcFold12, hhigh]
  rw [h4, h12, crcFold5, hlow, BitVec.zero_shiftLeft, BitVec.xor_zero]

/-- The high byte of the accumulator cancels itself, and its low byte moves up. -/
theorem crcStep_own_high_byte (c : Word16) :
    crcStep c ((c >>> 8).setWidth 8) = (c.setWidth 8).setWidth 16 <<< 8 := by
  have hmix : crcMix ((c >>> 8).setWidth 8) (crcSwap c) = (c.setWidth 8).setWidth 16 <<< 8 := by
    refine BitVec.eq_of_getLsbD_eq fun i hi => ?_
    rw [crcMix_getLsbD _ _ hi, crcSwap_getLsbD _ hi]
    by_cases h : i < 8
    · simp [h]
    · simp [h, hi, show i - 8 < 8 by omega]
  rw [crcStep, hmix, crcFolds_high_byte]

/-- The two bytes of a checksum, high byte first, take it to zero. -/
theorem crcStep_own_bytes (c : Word16) : crcStep (crcStep c ((c >>> 8).setWidth 8)) (c.setWidth 8) = 0#16 := by
  rw [crcStep_own_high_byte, crcStep_high_byte]

theorem crc16_append_own_checksum (data : List Byte) (seed : Word16) :
    crc16 (data ++ [(crc16 data seed >>> 8).setWidth 8, (crc16 data seed).setWidth 8]) seed = 0#16 := by
  rw [crc16_append, crc16_cons, crc16_cons, crc16_nil, crcStep_own_bytes]

/-- Settles O14: the checksum of the sequence is the accumulator its own two bytes meet. -/
theorem crcResidueIsZero : Obligations.CrcResidueIsZero := crc16_append_own_checksum

/-- No other two bytes take a checksum to zero. -/
theorem crc16_append_word_eq_zero_iff (data : List Byte) (hi lo : Byte) (seed : Word16) :
    crc16 (data ++ [hi, lo]) seed = 0#16 ↔ crc16 data seed = hi ++ lo := by
  have hhi : ((hi ++ lo) >>> 8).setWidth 8 = hi := by
    apply BitVec.eq_of_toNat_eq
    simp only [BitVec.toNat_setWidth, BitVec.toNat_ushiftRight, toNat_append_byte, Nat.shiftRight_eq_div_pow]
    omega
  have hlo : (hi ++ lo).setWidth 8 = lo := by
    apply BitVec.eq_of_toNat_eq
    rw [BitVec.toNat_setWidth, toNat_append_byte]
    omega
  have hown : crc16 [hi, lo] (hi ++ lo) = 0#16 := by
    simpa only [hhi, hlo, crc16_cons, crc16_nil] using crcStep_own_bytes (hi ++ lo)
  rw [crc16_append, ← hown, (crc16_injective _).eq_iff]

/-! ### The seed (R86, law 5) -/

theorem crc16_xor_seed (data : List Byte) (s s' : Word16) :
    crc16 data s ^^^ crc16 data s' = crc16 data (s ^^^ s') ^^^ crc16 data 0#16 := by
  induction data generalizing s s' with
  | nil => simp
  | cons b data ih =>
    have hstep : crcStep s b ^^^ crcStep s' b = crcStep (s ^^^ s') b ^^^ crcStep 0#16 b := by
      rw [← crcStep_xor, ← crcStep_xor, BitVec.xor_zero]
    rw [crc16_cons, crc16_cons, crc16_cons, crc16_cons, ih, ih (crcStep (s ^^^ s') b), hstep]

theorem crc16_zeros (n : Nat) : crc16 (List.replicate n 0#8) 0#16 = 0#16 := by
  induction n with
  | zero => rfl
  | succ n ih => rw [List.replicate_succ, crc16_cons, show crcStep 0#16 0#8 = 0#16 from rfl, ih]

/-- Settles O15: both laws by induction on the sequence, from the linearity of the step. -/
theorem crcSeedEntersByXor : Obligations.CrcSeedEntersByXor := ⟨crc16_xor_seed, crc16_zeros⟩

/-! ### The two operations -/

/-- Settles O17: the operation has one path, and evaluates on it. -/
theorem calculateCrc16WritesTheChecksum : Obligations.CalculateCrc16WritesTheChecksum := fun _ => rfl

theorem crc16_checkInput : crc16 checkInput seedFresh = checkValue := by decide

/-- What `selfCheck` leaves (R87): the comparison is of two constants that are equal. -/
theorem exec_selfCheck (s : State) : exec .selfCheck s = .next
    { s with op := none, working := Working.empty, status := .ok, results := Results.empty, selfOk := some true } := by
  change execSelfCheck s = _
  simp only [execSelfCheck, crc16_checkInput, beq_self_eq_true]
  rfl

/-- Settles O18: the check value by evaluation, and then the operation's comparison holds. -/
theorem selfCheckAlwaysSucceeds : Obligations.SelfCheckAlwaysSucceeds := ⟨crc16_checkInput, exec_selfCheck⟩

end Sys2Proof.Machine
end

section
/-! SUPPORT. Reads of the buffer (spec/20_memory.md R30 to R33) and field assembly (spec/30_encoding.md R60 to R62):
what a field of the slice says is what the buffer says at the cursor. -/

namespace Sys2Proof.Machine

/-! ### Ranges -/

/-- Settles O20: a list is the range exactly when it has the range's length and its bytes. -/
theorem memBytesReadsExactlyTheRange : Obligations.MemBytesReadsExactlyTheRange := by
  intro s addr n bytes
  have hread (hfits : addr + n ≤ s.operands.bufLen) (i : Nat) (hi : i < n) :
      (Memory.readMany s.operands.buf addr n)[i]? = s.readByte (addr + i) := by
    rw [Memory.readMany_getElem? _ _ _ _ hi, State.readByte, if_pos (by omega)]
  rw [memBytes_eq]
  constructor
  · intro h
    split at h
    · cases h
      exact ⟨‹_›, Memory.readMany_length _ _ _, hread ‹_›⟩
    · cases h
  · rintro ⟨hfits, hlength, hbytes⟩
    rw [if_pos hfits, Option.some_inj]
    refine List.ext_getElem? fun i => ?_
    by_cases hi : i < n
    · rw [hread hfits i hi, hbytes i hi]
    · rw [List.getElem?_eq_none (by rw [Memory.readMany_length]; omega), List.getElem?_eq_none (by omega)]

theorem ofNat_be_eq_of_toNat {w : Nat} (x : BitVec w) {bytes : List Byte} (h : x.toNat = be bytes) :
    BitVec.ofNat w (be bytes) = x := by
  rw [← h, BitVec.ofNat_toNat, BitVec.setWidth_eq]

theorem ofNat_be_readMany_one (m : Memory) (a : Nat) : BitVec.ofNat 8 (be (Memory.readMany m a 1)) = Memory.read m a :=
  ofNat_be_eq_of_toNat _ (by simp [Memory.readMany, be])

/-- Settles O21: on both sides the value is the bytes as digits of base 256. -/
theorem fieldsAreBigEndian : Obligations.FieldsAreBigEndian := by
  intro m a
  refine ⟨ofNat_be_eq_of_toNat _ ?_, ofNat_be_eq_of_toNat _ ?_, ofNat_be_readMany_one m a⟩
  · simp only [toNat_append_byte, Memory.readMany, be, List.foldl, Nat.zero_mul, Nat.zero_add]
  · simp only [toNat_append_byte, Memory.readMany, be, List.foldl, Nat.zero_mul, Nat.zero_add]

/-! ### Fields of the slice -/

theorem slice_rawAtCursor (s : State) {n k w : Nat} (h : k + w ≤ n) :
    slice (rawAtCursor s n) k w = Memory.readMany s.operands.buf (s.operands.off + k) w :=
  Memory.slice_readMany _ _ _ _ _ h

theorem u8At_rawAtCursor (s : State) {n k : Nat} (h : k + 1 ≤ n) :
    u8At (rawAtCursor s n) k = BitVec.ofNat 8 (valueAtCursor s k 1) := by
  rw [u8At, slice_rawAtCursor s h, valueAtCursor]

theorem u16At_rawAtCursor (s : State) {n k : Nat} (h : k + 2 ≤ n) :
    u16At (rawAtCursor s n) k = BitVec.ofNat 16 (valueAtCursor s k 2) := by
  rw [u16At, slice_rawAtCursor s h, valueAtCursor]

theorem u64At_rawAtCursor (s : State) {n k : Nat} (h : k + 8 ≤ n) :
    u64At (rawAtCursor s n) k = BitVec.ofNat 64 (valueAtCursor s k 8) := by
  rw [u64At, slice_rawAtCursor s h, valueAtCursor]

theorem bytes8At_rawAtCursor (s : State) {n k : Nat} (h : k + 8 ≤ n) :
    bytes8At (rawAtCursor s n) k = Memory.readMany s.operands.buf (s.operands.off + k) 8 :=
  slice_rawAtCursor s h

theorem take_rawAtCursor (s : State) {n k : Nat} (h : k ≤ n) : (rawAtCursor s n).take k = rawAtCursor s k := by
  simpa [slice, rawAtCursor] using Memory.slice_readMany s.operands.buf s.operands.off n 0 k (by omega)

theorem ofNat_valueAtCursor_one (s : State) (k : Nat) : BitVec.ofNat 8 (valueAtCursor s k 1) = byteAtCursor s k :=
  ofNat_be_readMany_one _ _

/-! ### The message of a frame -/

/-- No minimum size is below the two bytes of the embedded checksum. -/
theorem two_le_minSize (v : Variant) : 2 ≤ minSize v := by
  cases v <;> decide

/-- Settles O19: the six tables, each by evaluation. -/
theorem minimumSizesAreTheSumsOfTheWidths : Obligations.MinimumSizesAreTheSumsOfTheWidths := by
  refine ⟨⟨rfl, rfl, rfl, rfl, rfl, rfl⟩, fun v => ⟨rfl, ?_, ?_, two_le_minSize v⟩⟩
  all_goals
    cases v <;> decide

/-- The parse function of a variant (R121 to R126) reads what the registry's table names (R71), from a slice that
reaches the variant's minimum size. -/
theorem decodeVariant_rawAtCursor (s : State) {v : Variant} {n : Nat} (h : minSize v ≤ n) :
    decodeVariant v (rawAtCursor s n) Results.empty = registryFields s v := by
  cases v
  all_goals
    simp only [minSize_shortBroadcast, minSize_directed, minSize_shortDirected, minSize_beacon, minSize_broadcast,
      minSize_unknown] at h
    simp (disch := omega) only [decodeVariant, decodeShortBroadcast, decodeDirected, decodeShortDirected, decodeBeacon,
      decodeBroadcast, decodeUnknown, u8At_rawAtCursor, u64At_rawAtCursor, bytes8At_rawAtCursor]
    rfl

/-- `TBITS` does not overflow its 32 bits (R109). -/
theorem totalBits_eq (length : Byte) : totalBits length = BitVec.ofNat 32 (length.toNat * 8 + config.overheadBits) := by
  apply BitVec.eq_of_toNat_eq
  rw [totalBits]
  simp [BitVec.toNat_add, BitVec.toNat_mul]

/-- A frame whose declared length reaches its variant's minimum leaves the message the buffer and the registry give. -/
theorem messageState_eq_decodedState (s : State) {v : Variant} {length : Byte} (h : minSize v ≤ length.toNat) :
    messageState v length s = decodedState s v length (registryFields s v) := by
  have h2 : length.toNat - checksumBytes + 2 ≤ length.toNat := by
    have := two_le_minSize v
    rw [show checksumBytes = 2 from rfl]
    omega
  have herr0 : (registryFields s v).err0 = none := by cases v <;> rfl
  have herr1 : (registryFields s v).err1 = none := by cases v <;> rfl
  simp only [messageState, writeMessage, beginDecode_results, decodeVariant_rawAtCursor s h, u16At_rawAtCursor s h2,
    take_rawAtCursor s (Nat.sub_le _ _), totalBits_eq, herr0, herr1]
  rfl

end Sys2Proof.Machine
end

section
/-! SUPPORT. The frame instructions (spec/42_variants.md R121 to R126, spec/60_exceptions.md R147): what each raises,
in order, and the layout it decodes. -/

namespace Sys2Proof.Machine

/-! ### The four ends of a frame -/

section
variable {v : Variant} {p : Probe} {s : State}

theorem runVariant_of_probe_missing (h : s.operands.bufLen < s.operands.off + 6) :
    runVariant v p s = .next (errorState s .probeOutOfRange none none) := by
  rw [runVariant_eq, if_pos h]

theorem runVariant_of_short (hprobe : s.operands.off + 6 ≤ s.operands.bufLen) (hshort : p.p0.toNat < minSize v) :
    runVariant v p s =
      .next (errorState s .truncatedFrame (some p.p0) (some (BitVec.ofNat 8 (minSize v)))) := by
  rw [runVariant_eq, if_neg (by omega), if_pos hshort]

theorem runVariant_of_slice_missing (hprobe : s.operands.off + 6 ≤ s.operands.bufLen) (hlong : minSize v ≤ p.p0.toNat)
    (hslice : s.operands.bufLen < s.operands.off + p.p0.toNat) :
    runVariant v p s = .next (errorState s .sliceOutOfRange (some p.p0) none) := by
  rw [runVariant_eq, if_neg (by omega), if_neg (by omega), if_pos hslice]

theorem runVariant_of_fits (hprobe : s.operands.off + 6 ≤ s.operands.bufLen) (hlong : minSize v ≤ p.p0.toNat)
    (hslice : s.operands.off + p.p0.toNat ≤ s.operands.bufLen) :
    runVariant v p s = .next (decodedState s v p.p0 (registryFields s v)) := by
  rw [runVariant_eq, if_neg (by omega), if_neg (by omega), if_neg (by omega), messageState_eq_decodedState s hlong]

end

/-- Every frame needs its probe before anything else (R144). -/
theorem FrameMeaning.of_probe_missing {run : State → Host.Outcome State Fault Refusal} (hrun : FrameMeaning run)
    {s : State} (h : s.operands.bufLen < s.operands.off + 6) :
    run s = .next (errorState s .probeOutOfRange none none) := by
  cases hrun with
  | variant v p => exact runVariant_of_probe_missing h
  | illegal length eirp subnet msgId addrControl => rw [execIllegalAddressControl_eq, if_pos h]

/-- Settles O29: the ends of a frame's steps in the order of R147, the first of them shared with the illegal row. -/
theorem frameInstructionsRaiseInOrder : Obligations.FrameInstructionsRaiseInOrder := by
  intro p s
  refine ⟨(frameMeaning_exec_decodeProbe p).of_probe_missing, fun v hsel hprobe =>
    ⟨fun hshort => ?_, fun hlong hslice => ?_⟩⟩
  · rw [exec_decodeProbe_of_variant hsel, runVariant_of_short hprobe hshort]
  · rw [exec_decodeProbe_of_variant hsel, runVariant_of_slice_missing hprobe hlong hslice]

/-- Settles O28: past the probe's bounds the row's own error is all there is. -/
theorem illegalAddressControlReportsTheByte : Obligations.IllegalAddressControlReportsTheByte :=
  fun length eirp subnet msgId addrControl s hprobe =>
    (execIllegalAddressControl_eq length eirp subnet msgId addrControl s).trans (if_neg (by omega))

/-! ### The registry's fields, written out -/

theorem registryFields_shortBroadcast (s : State) : registryFields s .shortBroadcast =
    { Results.empty with
      fLength := some (byteAtCursor s 0), fEirp := some (byteAtCursor s 1), fMsgId := some (byteAtCursor s 2),
      fFrameControl := some (byteAtCursor s 3), fSrcUid := some (uidAtCursor s 4) } := by
  simp only [← ofNat_valueAtCursor_one]
  rfl

theorem registryFields_shortDirected (s : State) : registryFields s .shortDirected =
    { Results.empty with
      fLength := some (byteAtCursor s 0), fEirp := some (byteAtCursor s 1), fMsgId := some (byteAtCursor s 2),
      fFrameControl := some (byteAtCursor s 3), fDstUid := some (uidAtCursor s 4) } := by
  simp only [← ofNat_valueAtCursor_one]
  rfl

theorem registryFields_directed (s : State) : registryFields s .directed =
    { Results.empty with
      fLength := some (byteAtCursor s 0), fEirp := some (byteAtCursor s 1), fSubnet := some (byteAtCursor s 2),
      fFrameControl := some (byteAtCursor s 3), fMsgId := some (byteAtCursor s 4),
      fAddrControl := some (byteAtCursor s 5), fSrcUid := some (uidAtCursor s 6),
      fDstUid := some (uidAtCursor s 14), fOpenTag1 := some (byteAtCursor s 22) } := by
  simp only [← ofNat_valueAtCursor_one]
  rfl

theorem registryFields_beacon (s : State) : registryFields s .beacon =
    { Results.empty with
      fEirp := some (byteAtCursor s 1), fSubnet := some (byteAtCursor s 2),
      fFrameControl := some (byteAtCursor s 3), fMsgId := some (byteAtCursor s 4),
      fAddrControl := some (byteAtCursor s 5), fSrcUid := some (uidAtCursor s 6) } := by
  simp only [← ofNat_valueAtCursor_one]
  rfl

theorem registryFields_broadcast (s : State) : registryFields s .broadcast =
    { registryFields s .beacon with
      fOpenTag8 := some [byteAtCursor s 14, byteAtCursor s 15, byteAtCursor s 16, byteAtCursor s 17,
        byteAtCursor s 18, byteAtCursor s 19, byteAtCursor s 20, byteAtCursor s 21] } := rfl

theorem registryFields_unknown (s : State) : registryFields s .unknown =
    { Results.empty with fLength := some (byteAtCursor s 0), fEirp := some (byteAtCursor s 1) } := by
  simp only [← ofNat_valueAtCursor_one]
  rfl

/-! ### The six layouts -/

/-- Settles O22: a slice of 12 bytes holds the probe too, and the frame's registers are the registry's. -/
theorem shortBroadcastDecodesItsLayout : Obligations.ShortBroadcastDecodesItsLayout := by
  intro length eirp msgId uid0 uid1 s hlong hslice
  rw [← registryFields_shortBroadcast]
  exact runVariant_of_fits (p := ⟨length, eirp, msgId, 0x04#8, uid0, uid1⟩) (by omega) hlong hslice

/-- Settles O23: as O22, the UID going to the other register. -/
theorem shortDirectedDecodesItsLayout : Obligations.ShortDirectedDecodesItsLayout := by
  intro length eirp msgId uid0 uid1 s hlong hslice
  rw [← registryFields_shortDirected]
  exact runVariant_of_fits (p := ⟨length, eirp, msgId, 0x05#8, uid0, uid1⟩) (by omega) hlong hslice

/-- Settles O24: the registry's fields of the longest layout. -/
theorem directedDecodesItsLayout : Obligations.DirectedDecodesItsLayout := by
  intro length eirp subnet msgId addrControl s hlong hslice
  rw [← registryFields_directed]
  exact runVariant_of_fits (p := ⟨length, eirp, subnet, 0x20#8, msgId, addrControl⟩) (by omega) hlong hslice

/-- Settles O25: the registry leaves the length byte out of the record. -/
theorem beaconDecodesItsLayout : Obligations.BeaconDecodesItsLayout := by
  intro length eirp subnet msgId s hlong hslice
  rw [← registryFields_beacon]
  exact runVariant_of_fits (p := ⟨length, eirp, subnet, 0x22#8, msgId, 0x40#8⟩) (by omega) hlong hslice

/-- Settles O26: the registry's fields of `Beacon` and the open tag. -/
theorem broadcastDecodesItsLayout : Obligations.BroadcastDecodesItsLayout := by
  intro length eirp subnet msgId s hlong hslice
  have hfields := registryFields_broadcast s
  rw [registryFields_beacon] at hfields
  rw [← hfields]
  exact runVariant_of_fits (p := ⟨length, eirp, subnet, 0x22#8, msgId, 0x41#8⟩) (by omega) hlong hslice

/-- Settles O27: here alone the slice does not reach the end of the probe by itself. -/
theorem unknownDecodesLengthAndEirp : Obligations.UnknownDecodesLengthAndEirp := by
  intro length eirp byte2 frameControl byte4 byte5 s hlong hprobe hslice
  rw [← registryFields_unknown]
  exact runVariant_of_fits (p := ⟨length, eirp, byte2, frameControl, byte4, byte5⟩) hprobe hlong hslice

end Sys2Proof.Machine
end

section
/-! SUPPORT. `decodeFrame`, whole (spec/41_dispatch.md R113): its five ends, one of which every state has, and what
each says of the statuses. -/

namespace Sys2Proof.Machine

/-! ### The five ends of `decodeFrame` -/

theorem exec_decodeFrame_of_slice_missing {s : State} {v : Variant} (hprobe : s.operands.off + 6 ≤ s.operands.bufLen)
    (hsel : select (probeAtCursor s) = .variant v) (hlong : minSize v ≤ (byteAtCursor s 0).toNat)
    (hslice : s.operands.bufLen < s.operands.off + (byteAtCursor s 0).toNat) :
    exec .decodeFrame s = .next (errorState s .sliceOutOfRange (some (byteAtCursor s 0)) none) := by
  rw [exec_decodeFrame_of_variant hprobe hsel]
  exact runVariant_of_slice_missing hprobe hlong hslice

theorem exec_decodeFrame_of_fits {s : State} {v : Variant} (hprobe : s.operands.off + 6 ≤ s.operands.bufLen)
    (hsel : select (probeAtCursor s) = .variant v) (hlong : minSize v ≤ (byteAtCursor s 0).toNat)
    (hslice : s.operands.off + (byteAtCursor s 0).toNat ≤ s.operands.bufLen) :
    exec .decodeFrame s = .next (decodedState s v (byteAtCursor s 0) (registryFields s v)) := by
  rw [exec_decodeFrame_of_variant hprobe hsel]
  exact runVariant_of_fits hprobe hlong hslice

/-- Settles O30, clause by clause. -/
theorem decodeFrameFollowsTheWholeRule : Obligations.DecodeFrameFollowsTheWholeRule := fun _ =>
  ⟨exec_decodeFrame_of_probe_missing, fun hprobe =>
    ⟨exec_decodeFrame_of_illegalAddressControl hprobe, fun _ hsel =>
      ⟨exec_decodeFrame_of_short hprobe hsel, fun hlong =>
        ⟨exec_decodeFrame_of_slice_missing hprobe hsel hlong, exec_decodeFrame_of_fits hprobe hsel hlong⟩⟩⟩⟩

/-- The states `decodeFrame` can leave, each with the conditions under which it does. -/
inductive DecodeEnd (s : State) : State → Prop where
  | probeMissing (hprobe : s.operands.bufLen < s.operands.off + 6) :
    DecodeEnd s (errorState s .probeOutOfRange none none)
  | illegal (hprobe : s.operands.off + 6 ≤ s.operands.bufLen)
    (hsel : select (probeAtCursor s) = .illegalAddressControl) :
    DecodeEnd s (errorState s .illegalAddressControl (some (byteAtCursor s 5)) none)
  | truncated (v : Variant) (hprobe : s.operands.off + 6 ≤ s.operands.bufLen)
    (hsel : select (probeAtCursor s) = .variant v) (hshort : (byteAtCursor s 0).toNat < minSize v) :
    DecodeEnd s (errorState s .truncatedFrame (some (byteAtCursor s 0)) (some (BitVec.ofNat 8 (minSize v))))
  | sliceMissing (v : Variant) (hprobe : s.operands.off + 6 ≤ s.operands.bufLen)
    (hsel : select (probeAtCursor s) = .variant v) (hlong : minSize v ≤ (byteAtCursor s 0).toNat)
    (hslice : s.operands.bufLen < s.operands.off + (byteAtCursor s 0).toNat) :
    DecodeEnd s (errorState s .sliceOutOfRange (some (byteAtCursor s 0)) none)
  | message (v : Variant) (hprobe : s.operands.off + 6 ≤ s.operands.bufLen)
    (hsel : select (probeAtCursor s) = .variant v) (hlong : minSize v ≤ (byteAtCursor s 0).toNat)
    (hslice : s.operands.off + (byteAtCursor s 0).toNat ≤ s.operands.bufLen) :
    DecodeEnd s (decodedState s v (byteAtCursor s 0) (registryFields s v))

/-- Every state has one of the ends. -/
theorem exists_decodeEnd (s : State) : ∃ t, exec .decodeFrame s = .next t ∧ DecodeEnd s t := by
  by_cases hprobe : s.operands.off + 6 ≤ s.operands.bufLen
  · cases hsel : select (probeAtCursor s) with
    | illegalAddressControl => exact ⟨_, exec_decodeFrame_of_illegalAddressControl hprobe hsel, .illegal hprobe hsel⟩
    | variant v =>
      by_cases hlong : minSize v ≤ (byteAtCursor s 0).toNat
      · by_cases hslice : s.operands.off + (byteAtCursor s 0).toNat ≤ s.operands.bufLen
        · exact ⟨_, exec_decodeFrame_of_fits hprobe hsel hlong hslice, .message v hprobe hsel hlong hslice⟩
        · rw [not_le] at hslice
          exact ⟨_, exec_decodeFrame_of_slice_missing hprobe hsel hlong hslice,
            .sliceMissing v hprobe hsel hlong hslice⟩
      · rw [not_le] at hlong
        exact ⟨_, exec_decodeFrame_of_short hprobe hsel hlong, .truncated v hprobe hsel hlong⟩
  · rw [not_le] at hprobe
    exact ⟨_, exec_decodeFrame_of_probe_missing hprobe, .probeMissing hprobe⟩

theorem decodeEnd_of_exec {s t : State} (h : exec .decodeFrame s = .next t) : DecodeEnd s t := by
  obtain ⟨t', ht', hend⟩ := exists_decodeEnd s
  cases h.symm.trans ht'
  exact hend

/-- A success is the message of a selected variant, in a slice that is long enough and inside the buffer. -/
theorem message_of_exec_ok {s t : State} (h : exec .decodeFrame s = .next t) (hok : t.status = .ok) :
    ∃ v, select (probeAtCursor s) = .variant v ∧ minSize v ≤ (byteAtCursor s 0).toNat ∧
      s.operands.off + (byteAtCursor s 0).toNat ≤ s.operands.bufLen ∧
      t = decodedState s v (byteAtCursor s 0) (registryFields s v) := by
  cases decodeEnd_of_exec h with
  | message v hprobe hsel hlong hslice => exact ⟨v, hsel, hlong, hslice, rfl⟩
  | probeMissing | illegal | truncated | sliceMissing => cases hok

/-! ### The bounds faults -/

/-- Settles O31: the status names the first of the five ends, whose condition excludes the others'. -/
theorem probeOutOfRangeExactlyWhenBytesMissing : Obligations.ProbeOutOfRangeExactlyWhenBytesMissing := by
  intro s t h
  cases decodeEnd_of_exec h with
  | probeMissing hprobe => exact ⟨iff_of_true rfl hprobe, fun _ => rfl⟩
  | illegal hprobe | truncated _ hprobe | sliceMissing _ hprobe | message _ hprobe =>
    exact ⟨iff_of_false nofun (by omega), nofun⟩

/-- Settles O34: the conditions of the other ends each contradict one of the clauses. -/
theorem sliceOutOfRangeExactlyWhenItRunsPast : Obligations.SliceOutOfRangeExactlyWhenItRunsPast := by
  intro s t h
  cases decodeEnd_of_exec h with
  | sliceMissing v hprobe hsel hlong hslice => exact ⟨iff_of_true rfl ⟨hprobe, ⟨v, hsel, hlong⟩, hslice⟩, fun _ => rfl⟩
  | probeMissing hmissing => exact ⟨iff_of_false nofun fun ⟨hprobe, _, _⟩ => by omega, nofun⟩
  | illegal _ hsel =>
    refine ⟨iff_of_false nofun ?_, nofun⟩
    rintro ⟨-, ⟨v, hsel', -⟩, -⟩
    cases hsel.symm.trans hsel'
  | truncated v _ hsel hshort =>
    refine ⟨iff_of_false nofun ?_, nofun⟩
    rintro ⟨-, ⟨v', hsel', hlong⟩, -⟩
    cases hsel.symm.trans hsel'
    omega
  | message _ _ _ _ hslice => exact ⟨iff_of_false nofun fun ⟨_, _, hpast⟩ => by omega, nofun⟩

/-! ### What an error leaves -/

/-- Settles O35: four of the ends are `errorState`, and the fifth is `Ok`. -/
theorem errorsLeaveOnlyStatusAndPayload : Obligations.ErrorsLeaveOnlyStatusAndPayload := by
  intro s t h hstatus
  cases decodeEnd_of_exec h with
  | message => exact absurd rfl hstatus
  | probeMissing | illegal | truncated | sliceMissing => rfl

/-- An error state holds a message register nowhere (R148). -/
theorem resultReg_errorState (s : State) (status : Status) (err0 err1 : Option Byte) (reg : ResultReg)
    (hstatus : reg ≠ .status) (herr0 : reg ≠ .err0) (herr1 : reg ≠ .err1) (hcrcOut : reg ≠ .crcOut)
    (hselfOk : reg ≠ .selfOk) : (errorState s status err0 err1).resultReg reg = none := by
  cases reg
  case status => exact absurd rfl hstatus
  case err0 => exact absurd rfl herr0
  case err1 => exact absurd rfl herr1
  case crcOut => exact absurd rfl hcrcOut
  case selfOk => exact absurd rfl hselfOk
  all_goals rfl

theorem readResult_of_no_value {reg : ResultReg} {s : State} (hop : s.op = none) (hvalue : s.resultReg reg = none) :
    readResult reg s = .fault (.noValue reg) := by
  rw [readResult, whenIdle_idle hop, hvalue]

/-- Settles O36: what O35 leaves holds no message register, and reading one is the port's fault. -/
theorem messageIsUnreadableAfterAnError : Obligations.MessageIsUnreadableAfterAnError := by
  intro s t reg h hok hstatus herr0 herr1 hcrcOut hselfOk
  rw [errorsLeaveOnlyStatusAndPayload s t h hok]
  exact readResult_of_no_value rfl (resultReg_errorState _ _ _ _ reg hstatus herr0 herr1 hcrcOut hselfOk)

/-! ### What a success leaves -/

/-- Settles O37: `NEXT` is the end of a slice inside the buffer, and no minimum size is below 2. -/
theorem successfulDecodeMovesTheCursorForward : Obligations.SuccessfulDecodeMovesTheCursorForward := by
  intro s t h hok
  obtain ⟨v, -, hlong, hslice, rfl⟩ := message_of_exec_ok h hok
  have := two_le_minSize v
  exact ⟨_, rfl, by omega, hslice, rfl⟩

/-- Settles O38: eight times a byte and the overhead are far below the register's 32 bits. -/
theorem totalBitLengthCountsBytesAndOverhead : Obligations.TotalBitLengthCountsBytesAndOverhead := by
  intro s t h hok
  obtain ⟨v, -, hlong, -, rfl⟩ := message_of_exec_ok h hok
  have hmin := two_le_minSize v
  have hmax := (byteAtCursor s 0).isLt
  have hbits : (BitVec.ofNat 32 ((byteAtCursor s 0).toNat * 8 + config.overheadBits)).toNat =
      8 * (byteAtCursor s 0).toNat + 88 := by
    rw [BitVec.toNat_ofNat, config_overheadBits]
    omega
  exact ⟨_, rfl, hbits, hbits, by omega, by omega⟩

theorem ofNat_valueAtCursor_two (s : State) (k : Nat) :
    BitVec.ofNat 16 (valueAtCursor s k 2) = byteAtCursor s k ++ byteAtCursor s (k + 1) :=
  (fieldsAreBigEndian s.operands.buf (s.operands.off + k)).2.1

/-- The low 16 bits of a UID are its last two bytes. -/
theorem uidAtCursor_setWidth (s : State) (k : Nat) :
    (uidAtCursor s k).setWidth 16 = BitVec.ofNat 16 (valueAtCursor s (k + 6) 2) := by
  apply BitVec.eq_of_toNat_eq
  simp only [uidAtCursor, valueAtCursor, Memory.readMany, be, List.foldl, BitVec.toNat_setWidth, BitVec.toNat_ofNat,
    Nat.add_assoc, Nat.reduceAdd]
  omega

/-- Settles O39: at the minimum length the last two bytes of the slice are the tail of the layout's last field. -/
theorem minimumFrameChecksumOverlapsItsLastField : Obligations.MinimumFrameChecksumOverlapsItsLastField := by
  intro s t v h hok hv hmin
  obtain ⟨v', -, -, -, rfl⟩ := message_of_exec_ok h hok
  cases hv
  have hecrc : (decodedState s v (byteAtCursor s 0) (registryFields s v)).results.eCrc =
      some (BitVec.ofNat 16 (valueAtCursor s (minSize v - 2) 2)) := by rw [← hmin]; rfl
  have huid (k : Nat) : some (BitVec.ofNat 16 (valueAtCursor s (k + 6) 2)) =
      (some (uidAtCursor s k)).map (·.setWidth 16) := congrArg some (uidAtCursor_setWidth s k).symm
  rw [hecrc]
  cases v with
  | shortBroadcast => exact ⟨fun _ => huid 4, nofun, nofun, nofun, nofun⟩
  | beacon => exact ⟨fun _ => huid 6, nofun, nofun, nofun, nofun⟩
  | shortDirected => exact ⟨fun h => absurd h (by decide), fun _ => huid 4, nofun, nofun, nofun⟩
  | directed =>
    exact ⟨fun h => absurd h (by decide), nofun,
      fun _ => ⟨congrArg some (ofNat_valueAtCursor_two s 21), congrArg some (ofNat_valueAtCursor_one s 22)⟩, nofun,
      nofun⟩
  | broadcast =>
    exact ⟨fun h => absurd h (by decide), nofun, nofun, fun _ => congrArg some (ofNat_valueAtCursor_two s 20), nofun⟩
  | unknown =>
    have hccrc : (decodedState s .unknown (byteAtCursor s 0) (registryFields s .unknown)).results.cCrc =
        some (crc16 (rawAtCursor s (minSize .unknown - 2)) 0xFFFF#16) := by rw [← hmin]; rfl
    exact ⟨fun h => absurd h (by decide), nofun, nofun, nofun,
      fun _ => ⟨congrArg some (ofNat_valueAtCursor_two s 0), hccrc⟩⟩

end Sys2Proof.Machine
end

section
/-! SUPPORT. Which bytes a decode depends on (spec/20_memory.md R37, R45; spec/41_dispatch.md R118): two states with
one probe and one answer to each bounds check end alike, and a message is a function of its slice and the cursor. -/

namespace Sys2Proof.Machine

/-! ### Equal ranges -/

theorem Memory.readMany_congr {m m' : Memory} {a a' n : Nat}
    (h : ∀ i < n, Memory.read m (a + i) = Memory.read m' (a' + i)) :
    Memory.readMany m a n = Memory.readMany m' a' n := by
  refine List.ext_getElem? fun i => ?_
  by_cases hi : i < n
  · rw [Memory.readMany_getElem? _ _ _ _ hi, Memory.readMany_getElem? _ _ _ _ hi, h i hi]
  · rw [List.getElem?_eq_none (by simpa using hi), List.getElem?_eq_none (by simpa using hi)]

theorem readMany_cursor_congr {s s' : State} {k w : Nat}
    (h : ∀ i < w, byteAtCursor s (k + i) = byteAtCursor s' (k + i)) :
    Memory.readMany s.operands.buf (s.operands.off + k) w = Memory.readMany s'.operands.buf (s'.operands.off + k) w :=
  Memory.readMany_congr fun i hi => by simpa only [byteAtCursor, Nat.add_assoc] using h i hi

theorem rawAtCursor_congr {s s' : State} {n : Nat} (h : ∀ k < n, byteAtCursor s k = byteAtCursor s' k) :
    rawAtCursor s n = rawAtCursor s' n :=
  Memory.readMany_congr h

theorem probeAtCursor_eq_of_bytes {s s' : State} (h : ∀ k < 6, byteAtCursor s k = byteAtCursor s' k) :
    probeAtCursor s = probeAtCursor s' := by
  simp only [probeAtCursor, h 0 (by decide), h 1 (by decide), h 2 (by decide), h 3 (by decide), h 4 (by decide),
    h 5 (by decide)]

/-! ### Two decodes side by side -/

/-- One probe and one answer to each bounds check: the same error, or the message of the same variant and length. -/
theorem decode_ends_alike {s s' t t' : State} (hprobe : probeAtCursor s = probeAtCursor s')
    (hsix : s.operands.off + 6 ≤ s.operands.bufLen ↔ s'.operands.off + 6 ≤ s'.operands.bufLen)
    (hfits : s.operands.off + (byteAtCursor s 0).toNat ≤ s.operands.bufLen ↔
      s'.operands.off + (byteAtCursor s 0).toNat ≤ s'.operands.bufLen)
    (h : exec .decodeFrame s = .next t) (h' : exec .decodeFrame s' = .next t') :
    (∃ status err0 err1, t = errorState s status err0 err1 ∧ t' = errorState s' status err0 err1 ∧ status ≠ .ok) ∨
    ∃ v, t = messageState v (byteAtCursor s 0) s ∧ t' = messageState v (byteAtCursor s 0) s' := by
  have hbyte0 : byteAtCursor s 0 = byteAtCursor s' 0 := congrArg Probe.p0 hprobe
  have hbyte5 : byteAtCursor s 5 = byteAtCursor s' 5 := congrArg Probe.p5 hprobe
  rw [hbyte0] at hfits
  have hnext {u : State} (hu : exec .decodeFrame s' = .next u) : t' = u := Host.Outcome.next.inj (h'.symm.trans hu)
  cases decodeEnd_of_exec h with
  | probeMissing hmissing =>
    exact .inl ⟨_, _, _, rfl, hnext (exec_decodeFrame_of_probe_missing (by omega)), nofun⟩
  | illegal hpresent hsel =>
    rw [hprobe] at hsel
    refine .inl ⟨_, _, _, rfl, ?_, nofun⟩
    rw [hbyte5]
    exact hnext (exec_decodeFrame_of_illegalAddressControl (hsix.mp hpresent) hsel)
  | truncated v hpresent hsel hshort =>
    rw [hprobe] at hsel
    rw [hbyte0] at hshort
    refine .inl ⟨_, _, _, rfl, ?_, nofun⟩
    rw [hbyte0]
    exact hnext (exec_decodeFrame_of_short (hsix.mp hpresent) hsel hshort)
  | sliceMissing v hpresent hsel hlong hslice =>
    rw [hprobe] at hsel
    rw [hbyte0] at hlong hslice
    refine .inl ⟨_, _, _, rfl, ?_, nofun⟩
    rw [hbyte0]
    exact hnext (exec_decodeFrame_of_slice_missing (hsix.mp hpresent) hsel hlong (by omega))
  | message v hpresent hsel hlong hslice =>
    rw [hprobe] at hsel
    have hlong' := hlong
    rw [hbyte0] at hlong' hslice
    refine .inr ⟨v, (messageState_eq_decodedState s hlong).symm, ?_⟩
    rw [hbyte0, messageState_eq_decodedState s' hlong']
    exact hnext (exec_decodeFrame_of_fits (hsix.mp hpresent) hsel hlong' (hfits.mp hslice))

/-- A message is a function of its slice but for the two registers that hold the cursor. -/
theorem messageState_results_congr (v : Variant) (length : Byte) {s s' : State}
    (hraw : rawAtCursor s length.toNat = rawAtCursor s' length.toNat) :
    (messageState v length s).results =
      { (messageState v length s').results with
        rawBase := some s.operands.off, next := some (s.operands.off + length.toNat) } := by
  simp only [messageState, writeMessage, retire_results, beginDecode_results, beginDecode_operands, hraw]

/-- Settles O44: two errors report alike, and two messages at one cursor differ only in their slices. -/
theorem decodeFrameDependsOnlyOnProbeAndSlice : Obligations.DecodeFrameDependsOnlyOnProbeAndSlice := by
  intro s s' t t' hoff hbufLen hprobe h h' hslice
  obtain ⟨status, err0, err1, rfl, rfl, -⟩ | ⟨v, rfl, rfl⟩ := decode_ends_alike (probeAtCursor_eq_of_bytes hprobe)
    (by rw [hoff, hbufLen]) (by rw [hoff, hbufLen]) h h'
  · exact ⟨rfl, rfl⟩
  · refine ⟨rfl, ?_⟩
    rw [messageState_results_congr v _ (rawAtCursor_congr (hslice rfl)), hoff]
    rfl

/-- Settles O45: with `max 6 L` bytes in both buffers no bounds check can tell the two states apart. -/
theorem messageDependsOnCursorOnlyThroughBaseAndNext : Obligations.MessageDependsOnCursorOnlyThroughBaseAndNext := by
  intro s s' t t' hbytes hfits hfits' h h'
  obtain ⟨status, err0, err1, rfl, rfl, hstatus⟩ | ⟨v, rfl, rfl⟩ := decode_ends_alike
    (probeAtCursor_eq_of_bytes fun k hk => hbytes k (by omega)) (by omega) (by omega) h h'
  · exact ⟨rfl, rfl, fun hok => absurd hok hstatus⟩
  · refine ⟨rfl, ?_, fun _ => ⟨rfl, rfl, rfl, rfl⟩⟩
    rw [messageState_results_congr v _ (rawAtCursor_congr fun k hk => hbytes k (by omega))]

end Sys2Proof.Machine
end

section
/-! SUPPORT. The host's comparison of the two checksums (spec/10_state.md R18, spec/70_reset_and_hazards.md R177),
from the laws of R86. -/

namespace Sys2Proof.Machine

theorem Memory.readMany_add (m : Memory) (a n k : Nat) :
    Memory.readMany m a (n + k) = Memory.readMany m a n ++ Memory.readMany m (a + n) k := by
  induction n generalizing a with
  | zero => rw [Nat.zero_add]; rfl
  | succ n ih =>
    rw [Nat.succ_add, Memory.readMany, ih, Memory.readMany, List.cons_append, Nat.add_right_comm, Nat.add_assoc]

/-- A range around one of its bytes. -/
theorem rawAtCursor_around (s : State) (k n : Nat) :
    rawAtCursor s (k + (1 + n)) =
      rawAtCursor s k ++ byteAtCursor s k :: Memory.readMany s.operands.buf (s.operands.off + (k + 1)) n := by
  rw [rawAtCursor, Memory.readMany_add, Memory.readMany_add]
  rfl

/-- After `Ok` the two checksum registers agree exactly when the checksum of all but the last two bytes is those two
bytes. -/
theorem checksumsAgree_decodedState (s : State) (v : Variant) (length : Byte) (fields : Results) :
    (decodedState s v length fields).ChecksumsAgree ↔
      crc16 (rawAtCursor s (length.toNat - 2)) 0xFFFF#16 = BitVec.ofNat 16 (valueAtCursor s (length.toNat - 2) 2) := by
  constructor
  · rintro ⟨k, hecrc, hccrc⟩
    exact (Option.some.inj hccrc).trans (Option.some.inj hecrc).symm
  · exact fun h => ⟨_, rfl, congrArg some h⟩

/-- Settles O46: the last two bytes take the checksum of the bytes before them to zero exactly when they are that
checksum. -/
theorem checksumsAgreeExactlyWhenResidueIsZero : Obligations.ChecksumsAgreeExactlyWhenResidueIsZero := by
  intro s t h hok
  obtain ⟨v, -, hlong, -, rfl⟩ := message_of_exec_ok h hok
  obtain ⟨n, hn⟩ := Nat.exists_eq_add_of_le' ((two_le_minSize v).trans hlong)
  have hraw : rawAtCursor s (n + 2) = rawAtCursor s n ++ [byteAtCursor s n, byteAtCursor s (n + 1)] :=
    Memory.readMany_add _ _ n 2
  rw [checksumsAgree_decodedState, hn, Nat.add_sub_cancel, ofNat_valueAtCursor_two, hraw, crc16_append_word_eq_zero_iff]

/-- Settles O47: the embedded checksum lies past the altered byte, and the other is taken over the range that holds
it. -/
theorem oneAlteredByteBreaksTheChecksum : Obligations.OneAlteredByteBreaksTheChecksum := by
  intro s s' t t' k hoff hlength hk hne hsame h h' hok hok'
  obtain ⟨v, -, hlong, -, rfl⟩ := message_of_exec_ok h hok
  obtain ⟨v', -, -, -, rfl⟩ := message_of_exec_ok h' hok'
  rw [← hlength]
  obtain ⟨n, hn⟩ : ∃ n, (byteAtCursor s 0).toNat - 2 = k + (1 + n) := ⟨(byteAtCursor s 0).toNat - k - 3, by omega⟩
  have hecrc : valueAtCursor s (k + (1 + n)) 2 = valueAtCursor s' (k + (1 + n)) 2 :=
    congrArg be (readMany_cursor_congr fun i hi => hsame _ (by omega) (by omega))
  have hccrc : crc16 (rawAtCursor s (k + (1 + n))) 0xFFFF#16 ≠ crc16 (rawAtCursor s' (k + (1 + n))) 0xFFFF#16 := by
    have hbefore : rawAtCursor s k = rawAtCursor s' k := rawAtCursor_congr fun j hj => hsame j (by omega) (by omega)
    have hafter := readMany_cursor_congr (s := s) (s' := s') (k := k + 1) (w := n) fun i hi =>
      hsame _ (by omega) (by omega)
    rw [rawAtCursor_around, rawAtCursor_around, hbefore, hafter]
    exact crcDetectsOneChangedByte _ _ _ _ _ hne
  rw [← hn] at hecrc hccrc
  rw [checksumsAgree_decodedState, checksumsAgree_decodedState, hecrc]
  exact ⟨congrArg (fun value => some (BitVec.ofNat 16 value)) hecrc, fun h => hccrc (Option.some.inj h),
    fun ⟨hagree, hagree'⟩ => hccrc (hagree.trans hagree'.symm)⟩

end Sys2Proof.Machine
end

section
/-! SUPPORT. What every assigned operation leaves (spec/60_exceptions.md R140, R148, R149; spec/10_state.md R13, R18,
R21), from the ends of the frames, of `decodeFrame` and of the Checksum Engine. -/

namespace Sys2Proof.Machine

/-- The states an assigned instruction can leave. -/
inductive OperationEnd (s : State) : Instr → State → Prop where
  | error (i : Instr) (status : Status) (err0 err1 : Option Byte) (hstatus : status ≠ .none) :
    OperationEnd s i (errorState s status err0 err1)
  | message (i : Instr) (v : Variant) (length : Byte) : OperationEnd s i (messageState v length s)
  | checksum : OperationEnd s .calculateCrc16
      { s with op := none, working := Working.empty, status := .ok, results := Results.empty,
               crcOut := some (crc16 s.operands.data s.operands.seed) }
  | selfCheck : OperationEnd s .selfCheck
      { s with op := none, working := Working.empty, status := .ok, results := Results.empty, selfOk := some true }

theorem FrameMeaning.exists_end {run : State → Host.Outcome State Fault Refusal} (hrun : FrameMeaning run) (i : Instr)
    (s : State) : ∃ t, run s = .next t ∧ OperationEnd s i t := by
  cases hrun with
  | variant v p =>
    obtain h | h | h | h := runVariant_cases (v := v) (p := p) (s := s) rfl
    · exact ⟨_, h, .error i _ _ _ nofun⟩
    · exact ⟨_, h, .error i _ _ _ nofun⟩
    · exact ⟨_, h, .error i _ _ _ nofun⟩
    · exact ⟨_, h, .message i v p.p0⟩
  | illegal length eirp subnet msgId addrControl =>
    rw [execIllegalAddressControl_eq]
    split
    · exact ⟨_, rfl, .error i _ _ _ nofun⟩
    · exact ⟨_, rfl, .error i _ _ _ nofun⟩

/-- No assigned instruction stops (R140): it runs to one of the ends. -/
theorem exists_operationEnd {i : Instr} (hi : i ≠ .unassigned) (s : State) :
    ∃ t, exec i s = .next t ∧ OperationEnd s i t := by
  obtain hframe | rfl | rfl | rfl | rfl := exec_frameMeaning_or_operation i
  · exact hframe.exists_end i s
  · exact ⟨_, rfl, .checksum⟩
  · by_cases hprobe : s.operands.off + 6 ≤ s.operands.bufLen
    · rw [exec_decodeFrame_of_probe hprobe]
      exact (frameMeaning_exec_decodeProbe _).exists_end _ s
    · exact ⟨_, exec_decodeFrame_of_probe_missing (not_le.mp hprobe), .error _ _ _ _ nofun⟩
  · exact ⟨_, exec_selfCheck s, .selfCheck⟩
  · exact absurd rfl hi

theorem operationEnd_of_exec {i : Instr} {s t : State} (h : exec i s = .next t) : OperationEnd s i t := by
  have hi : i ≠ .unassigned := by
    rintro rfl
    cases h
  obtain ⟨t', ht', hend⟩ := exists_operationEnd hi s
  cases h.symm.trans ht'
  exact hend

/-- Settles O40: every end has the operands of the state before it, and a byte read sees nothing else. -/
theorem noInstructionWritesAnOperand : Obligations.NoInstructionWritesAnOperand := by
  intro i s t h
  have hoperands : t.operands = s.operands := by cases operationEnd_of_exec h <;> rfl
  refine ⟨hoperands, fun a => ?_⟩
  rw [State.readByte, State.readByte, hoperands]

/-- Settles O41: every end has a status, and every next state is idle. -/
theorem everyAssignedInstructionRunsToAnOutcome : Obligations.EveryAssignedInstructionRunsToAnOutcome := by
  intro i s hi
  obtain ⟨t, ht, hend⟩ := exists_operationEnd hi s
  refine ⟨t, ht, ?_, exec_next_idle ht⟩
  cases hend with
  | error _ _ _ _ hstatus => exact hstatus
  | message | checksum | selfCheck => nofun

/-- Settles O42: the end of the Checksum Engine's own operation is the only one that has another `CRCOUT` or `SELFOK`.
-/
theorem onlyTheirOwnOperationWritesCrcOutAndSelfOk : Obligations.OnlyTheirOwnOperationWritesCrcOutAndSelfOk := by
  intro i s t h
  cases operationEnd_of_exec h with
  | error | message => exact ⟨fun _ => rfl, fun _ => rfl⟩
  | checksum => exact ⟨fun hne => absurd rfl hne, fun _ => rfl⟩
  | selfCheck => exact ⟨fun _ => rfl, fun hne => absurd rfl hne⟩

end Sys2Proof.Machine
end

section
/-! SUPPORT. The host's acts (spec/10_state.md R10, spec/70_reset_and_hazards.md R171): what each leaves of the
buffer, the operands and the port, and that none lands during an operation. -/

namespace Sys2Proof.Machine

/-! ### The buffer -/

/-- A read after a sequence is written: the sequence's byte inside its range, and what was there anywhere else. -/
theorem Memory.read_writeBytes (m : Memory) (a : Nat) (bytes : List Byte) (c : Nat) (hm : Memory.wf m = true) :
    Memory.read (Memory.writeBytes m a bytes) c =
      if a ≤ c then bytes[c - a]?.getD (Memory.read m c) else Memory.read m c := by
  induction bytes generalizing m a with
  | nil => simp [Memory.writeBytes]
  | cons b bytes ih =>
    rw [Memory.writeBytes, ih _ _ (Memory.write_wf m a b hm), Memory.read_write m a b c hm]
    obtain h | rfl | h := Nat.lt_trichotomy c a
    · rw [if_neg (by omega), if_neg (by omega), if_neg (by omega)]
    · rw [if_neg (by omega), if_pos rfl, if_pos le_rfl, Nat.sub_self]
      rfl
    · rw [if_pos (by omega), if_neg (by omega), if_pos (by omega), show c - a = c - (a + 1) + 1 by omega,
        List.getElem?_cons_succ]

theorem withBuffer_readByte (bytes : List Byte) (s : State) (a : Nat) :
    (s.withBuffer bytes).readByte a = bytes[a]? := by
  simp only [State.readByte, withBuffer_operands, Memory.read_writeBytes [] 0 bytes a rfl, Nat.zero_le, if_true,
    Nat.sub_zero]
  split
  · rename_i h
    rw [List.getElem?_eq_getElem h, Option.getD_some]
  · rename_i h
    rw [List.getElem?_eq_none (not_lt.mp h)]

theorem withByte_readByte {a : Nat} (b : Byte) {s : State} (c : Nat) (hwf : Memory.wf s.operands.buf = true)
    (ha : a < s.operands.bufLen) : (s.withByte a b).readByte c = if c = a then some b else s.readByte c := by
  simp only [State.readByte, withByte_operands, Memory.read_write _ a b c hwf]
  by_cases hca : c = a
  · rw [if_pos hca, if_pos hca, if_pos (by omega)]
  · rw [if_neg hca, if_neg hca]

/-- Settles O48: the load is `withBuffer`, which starts from an empty buffer. -/
theorem loadedBytesAreRead : Obligations.LoadedBytesAreRead := fun bytes s hop =>
  ⟨s.withBuffer bytes, whenIdle_idle hop _, rfl, withBuffer_readByte bytes s, rfl⟩

/-- Settles O49: the write is `withByte` below `BUFLEN`, and the port's fault from there on. -/
theorem rewrittenByteIsSeenAndNoOther : Obligations.RewrittenByteIsSeenAndNoOther := by
  intro s a b hop hwf
  have hstore : hostStore a b s = if a < s.operands.bufLen then .next (s.withByte a b) else .fault (.noSuchAddress a) :=
    whenIdle_idle hop _
  refine ⟨fun ha => ⟨s.withByte a b, ?_, fun c => withByte_readByte b c hwf ha, rfl⟩, fun ha => ?_⟩
  · rw [hstore, if_pos ha]
  · rw [hstore, if_neg (not_lt.mpr ha)]

/-! ### The port -/

/-- Settles O55: with no operation issued each act is its own result, and with one issued each is refused before it. -/
theorem hostActsLandOnlyBetweenOperations : Obligations.HostActsLandOnlyBetweenOperations := by
  intro s
  constructor
  · intro hop
    have hadvance : hostAdvance s = _ := whenIdle_idle hop _
    refine ⟨fun _ => whenIdle_idle hop _, fun _ _ => whenIdle_idle hop _, fun _ => whenIdle_idle hop _, ?_, ?_⟩
    · intro n hnext
      rw [hadvance, hnext]
      rfl
    · intro hnext
      rw [hadvance, hnext]
  · intro hop
    obtain ⟨code, hcode⟩ := Option.ne_none_iff_exists'.mp hop
    have hrefused {α : Type} (result : Host.Outcome α Fault Refusal) :
        whenIdle s result = .refused .hostActDuringOperation := whenIdle_issued hcode result
    exact ⟨fun _ => hrefused _, fun _ _ => hrefused _, fun _ => hrefused _, fun _ _ => hrefused _, fun _ => hrefused _,
      hrefused _, fun _ => hrefused _⟩

/-- Settles O50: at reset no result register but `STATUS` holds a value, and the port's read of one without a value
faults. -/
theorem resetLeavesTheEngineIdleWithoutResults : Obligations.ResetLeavesTheEngineIdleWithoutResults := by
  refine ⟨rfl, rfl, rfl, fun reg hreg => readResult_of_no_value rfl ?_⟩
  cases reg
  case status => exact absurd rfl hreg
  all_goals rfl

end Sys2Proof.Machine
end

section
/-! SUPPORT. The coherent states (spec/10_state.md R11, R17, R21): reset, every step and every act of the host. -/

namespace Sys2Proof.Machine

/-! ### The message of a successful decode -/

/-- The registry writes the registers of the record's members and no other (R120). -/
theorem registryFields_holds (s : State) (v : Variant) (f : Field) :
    (registryFields s v).holds f = decide (f ∈ recordFields v) := by
  cases v <;> cases f <;> rfl

/-- `F_LENGTH`, where the record has it, is the length byte. -/
theorem registryFields_fLength (s : State) (v : Variant) {b : Byte} (h : (registryFields s v).fLength = some b) :
    b = byteAtCursor s 0 := by
  have hlength : (registryFields s v).fLength = some (byteAtCursor s 0) ∨ (registryFields s v).fLength = none := by
    rw [← ofNat_valueAtCursor_one]
    cases v with
    | beacon | broadcast => exact .inr rfl
    | shortBroadcast | directed | shortDirected | unknown => exact .inl rfl
  obtain hlength | hlength := hlength
  · exact Option.some.inj (h.symm.trans hlength)
  · cases h.symm.trans hlength

/-- The discriminants in the record are the ones that selected the variant (R58). -/
theorem registryFields_fFrameControl {s : State} {v : Variant} (hsel : select (probeAtCursor s) = .variant v) :
    (registryFields s v).fFrameControl = frameControlOf v := by
  have hrow := (select_eq_iff_row _ _).mp hsel
  cases v with
  | unknown => rfl
  | shortBroadcast | directed | shortDirected =>
    have hbyte : byteAtCursor s 3 = _ := hrow
    rw [← ofNat_valueAtCursor_one] at hbyte
    exact congrArg some hbyte
  | beacon | broadcast =>
    have hbyte : byteAtCursor s 3 = _ := hrow.1
    rw [← ofNat_valueAtCursor_one] at hbyte
    exact congrArg some hbyte

theorem registryFields_fAddrControl_beacon (s : State) :
    (registryFields s .beacon).fAddrControl = some (byteAtCursor s 5) :=
  congrArg some (ofNat_valueAtCursor_one s 5)

theorem registryFields_fAddrControl_broadcast (s : State) :
    (registryFields s .broadcast).fAddrControl = some (byteAtCursor s 5) :=
  congrArg some (ofNat_valueAtCursor_one s 5)

theorem registryFields_fOpenTag8_length (s : State) (v : Variant) {tag : List Byte}
    (h : (registryFields s v).fOpenTag8 = some tag) : tag.length = 8 := by
  cases v with
  | broadcast =>
    cases h
    rfl
  | shortBroadcast | directed | shortDirected | beacon | unknown => cases h

/-- The common part of a message holds no field. -/
theorem decodedState_holds (s : State) (v : Variant) (length : Byte) (fields : Results) (f : Field) :
    (decodedState s v length fields).results.holds f = fields.holds f := by
  cases f <;> rfl

/-- A frame that passes its checks leaves a message of the variant it selected. -/
theorem decodedState_isMessage {s : State} {v : Variant} (hsel : select (probeAtCursor s) = .variant v)
    (hlong : minSize v ≤ (byteAtCursor s 0).toNat) :
    (decodedState s v (byteAtCursor s 0) (registryFields s v)).results.IsMessage v s.operands.off
      (byteAtCursor s 0) := by
  have hrow := (select_eq_iff_row _ _).mp hsel
  refine ⟨rfl, rfl, rfl, rfl, rfl, rfl, rfl, rfl, hlong, rfl, rfl, fun f => ?_, fun b => registryFields_fLength s v,
    registryFields_fFrameControl hsel, ?_, ?_, fun tag => registryFields_fOpenTag8_length s v⟩
  · rw [decodedState_holds, registryFields_holds, decide_eq_true_iff]
  · rintro rfl
    exact (registryFields_fAddrControl_beacon s).trans (congrArg some hrow.2)
  · rintro rfl
    exact (registryFields_fAddrControl_broadcast s).trans (congrArg some hrow.2)

/-! ### Every step -/

/-- What the results of each end of `decodeFrame` fit. -/
theorem DecodeEnd.resultsMatchStatus {s t : State} (h : DecodeEnd s t) : t.ResultsMatchStatus := by
  cases h with
  | probeMissing => exact rfl
  | illegal _ hsel =>
    obtain ⟨-, h40, h41⟩ := (select_eq_iff_row _ .illegalAddressControl).mp hsel
    exact ⟨byteAtCursor s 5, h40, h41, rfl⟩
  | truncated v _ _ hshort => exact ⟨v, byteAtCursor s 0, hshort, rfl⟩
  | sliceMissing v _ _ hlong _ => exact ⟨byteAtCursor s 0, (two_le_minSize v).trans hlong, rfl⟩
  | message v _ hsel hlong _ => exact .inr ⟨v, s.operands.off, byteAtCursor s 0, decodedState_isMessage hsel hlong⟩

/-- Beside the results, an operation keeps what coherence asks for: it leaves the buffer alone, drops the working
registers, and writes no failed self-check. -/
theorem coherent_of_exec {i : Instr} {s t : State} (hs : s.Coherent) (h : exec i s = .next t)
    (hresults : t.ResultsMatchStatus) : t.Coherent := by
  obtain ⟨hwf, -, hselfOk, -⟩ := hs
  have hselfOk' : t.selfOk ≠ some false := by
    cases operationEnd_of_exec h with
    | error | message | checksum => exact hselfOk
    | selfCheck => nofun
  exact ⟨by rwa [(noInstructionWritesAnOperand i s t h).1], (exec_next_idle h).2, hselfOk', hresults⟩

/-- The three operations of the port (R67) leave results that fit `STATUS`. -/
theorem resultsMatchStatus_of_exec_decodeOp {code : BitVec 2} {s t : State} (h : exec (decodeOp code) s = .next t) :
    t.ResultsMatchStatus := by
  unfold decodeOp at h
  split_ifs at h
  · cases h
    exact .inl rfl
  · exact (decodeEnd_of_exec h).resultsMatchStatus
  · rw [exec_selfCheck] at h
    cases h
    exact .inl rfl
  · cases h

/-- Settles O52: an idle step changes nothing, and an operation leaves results that fit its `STATUS`. -/
theorem stepKeepsTheStateCoherent : Obligations.StepKeepsTheStateCoherent := by
  intro s t hs h
  cases hop : s.op with
  | none =>
    cases h.symm.trans (step_of_idle hop)
    exact hs
  | some code =>
    rw [step_of_issued hop] at h
    exact coherent_of_exec hs h (resultsMatchStatus_of_exec_decodeOp h)

/-! ### Reset and the host -/

/-- Settles O51: the empty buffer is in canonical form and nothing else holds a value. -/
theorem resetStateIsCoherent : Obligations.ResetStateIsCoherent := ⟨Memory.reset_wf, rfl, nofun, rfl, rfl, rfl⟩

/-- Coherence says nothing of the port, of the operands but the buffer's form, or of when the results were written. -/
theorem State.Coherent.of_host_change {s t : State} (hs : s.Coherent) (hwf : Memory.wf t.operands.buf = true)
    (h : t = { s with op := t.op, operands := t.operands }) : t.Coherent := by
  obtain ⟨-, hworking, hselfOk, hresults⟩ := hs
  rw [h]
  exact ⟨hwf, hworking, hselfOk, hresults⟩

/-- Settles O53: every act changes the port or an operand, and the two that write the buffer keep its form. -/
theorem hostActsKeepTheStateCoherent : Obligations.HostActsKeepTheStateCoherent := by
  intro s hs
  have hwf : Memory.wf s.operands.buf = true := hs.1
  refine ⟨fun bytes t h => ?_, fun off t h => ?_, fun data seed t h => ?_, fun code t h => ?_, fun a b t h => ?_,
    fun t h => ?_⟩
  · cases (whenIdle_next h).2
    exact hs.of_host_change (Memory.writeBytes_wf [] 0 bytes rfl) rfl
  · cases (whenIdle_next h).2
    exact hs.of_host_change hwf rfl
  · cases (whenIdle_next h).2
    exact hs.of_host_change hwf rfl
  · cases (whenIdle_next h).2
    exact hs.of_host_change hwf rfl
  · obtain ⟨-, -, rfl⟩ := hostStore_next h
    exact hs.of_host_change (Memory.write_wf _ a b hwf) rfl
  · obtain ⟨-, n, -, rfl⟩ := hostAdvance_next h
    exact hs.of_host_change hwf rfl

end Sys2Proof.Machine
end

section
/-! SUPPORT. The walk (spec/70_reset_and_hazards.md R181, R182): one operation of it, and that the bytes ahead of the
cursor bound the number of operations. -/

namespace Sys2Proof.Machine

/-- What one operation of a walk comes to: the walk's end, or one success more than the walk from `NEXT`. -/
inductive WalkStep (fuel : Nat) (s : State) : WalkResult → Prop where
  | decodeError (t : State) : WalkStep fuel s ⟨0, .decodeError, t⟩
  | residue (t : State) : WalkStep fuel s ⟨0, .residue, t⟩
  | nothingLeft (t : State) (hoff : s.operands.bufLen ≤ s.operands.off) : WalkStep fuel s ⟨0, .nothingLeft, t⟩
  | clean (t : State) (hnext : t.results.next = some s.operands.bufLen)
    (hoff : s.operands.off + 2 ≤ s.operands.bufLen) : WalkStep fuel s ⟨1, .clean, t⟩
  | frame (t : State) (n : Nat) (hbufLen : t.operands.bufLen = s.operands.bufLen) (hoff : s.operands.off + 2 ≤ n)
    (hn : n < s.operands.bufLen) :
    WalkStep fuel s
      ⟨(walk fuel (t.withOffset n)).frames + 1, (walk fuel (t.withOffset n)).ending, (walk fuel (t.withOffset n)).last⟩

/-- A bounds fault ends the walk, with residue only where bytes were left. -/
theorem WalkStep.of_boundsFault (fuel : Nat) (s t : State) :
    WalkStep fuel s ⟨0, if s.operands.off < s.operands.bufLen then .residue else .nothingLeft, t⟩ := by
  split
  · exact .residue t
  · exact .nothingLeft t (not_lt.mp ‹_›)

theorem walkStep_walk (fuel : Nat) (s : State) : WalkStep fuel s (walk (fuel + 1) s) := by
  obtain ⟨t, ht, hend⟩ := exists_decodeEnd (s.issue 1#2)
  have hstep : step (s.issue 1#2) = .next t := (step_of_issued (issue_op 1#2 s)).trans ht
  rw [walk, hstep]
  cases hend with
  | probeMissing => exact .of_boundsFault fuel s _
  | illegal => exact .decodeError _
  | truncated => exact .decodeError _
  | sliceMissing => exact .of_boundsFault fuel s _
  | message v hprobe hsel hlong hslice =>
    have h2 := two_le_minSize v
    rw [issue_operands] at hslice
    simp only [decodedState, issue_operands]
    split
    · rename_i hn
      exact .clean _ (congrArg some hn) (by omega)
    · exact .frame _ _ rfl (by omega) (by omega)

/-- What R182 says of a walk from `s`. -/
structure WalkEnds (s : State) (r : WalkResult) : Prop where
  finished : r.ending ≠ .unfinished
  not_stopped : r.ending ≠ .stopped
  frames : 2 * r.frames ≤ s.operands.bufLen - s.operands.off
  nothingLeft : r.ending = .nothingLeft → s.operands.bufLen ≤ s.operands.off ∧ r.frames = 0
  clean : r.ending = .clean → r.last.results.next = some s.operands.bufLen

theorem walk_ends {fuel : Nat} {s : State} (hfuel : (s.operands.bufLen - s.operands.off) / 2 < fuel) :
    WalkEnds s (walk fuel s) := by
  induction fuel generalizing s with
  | zero => omega
  | succ fuel ih =>
    have hwalk := walkStep_walk fuel s
    revert hwalk
    generalize walk (fuel + 1) s = r
    intro hwalk
    cases hwalk with
    | decodeError | residue => exact ⟨nofun, nofun, Nat.zero_le _, nofun, nofun⟩
    | nothingLeft t hoff => exact ⟨nofun, nofun, Nat.zero_le _, fun _ => ⟨hoff, rfl⟩, nofun⟩
    | clean t hnext hoff => exact ⟨nofun, nofun, show 2 * 1 ≤ _ by omega, nofun, fun _ => hnext⟩
    | frame t n hbufLen hoff hn =>
      have hrest := ih (s := t.withOffset n) (by simp only [withOffset_operands]; omega)
      have hframes := hrest.frames
      simp only [withOffset_operands, hbufLen] at hframes
      refine ⟨hrest.finished, hrest.not_stopped, by dsimp only; omega, fun hending => ?_, fun hending => ?_⟩
      · have hpast := (hrest.nothingLeft hending).1
        simp only [withOffset_operands, hbufLen] at hpast
        omega
      · rw [hrest.clean hending, withOffset_operands, hbufLen]

/-- Settles O54: the fuel given is one more than half the bytes ahead. -/
theorem everyWalkEnds : Obligations.EveryWalkEnds := by
  intro s
  obtain ⟨hfinished, hstopped, hframes, hnothing, hclean⟩ := walk_ends (s := s) (Nat.lt_succ_self _)
  exact ⟨hfinished, hstopped, hframes, hnothing, hclean⟩

end Sys2Proof.Machine
end
